-- ==== Sys2Proof/Word.lean ====
section
/-! DEFINITION. The word types of the block. Every register of the block is at most 32 bits wide
(spec rule R7, XLEN = 32), and all of its arithmetic is unsigned modulo 2^32 (R150). -/

namespace Sys2Proof

/-- A 32-bit register, address, command word, operand word or result word (R7, R67). -/
abbrev Word := BitVec 32

/-- One byte: a kind code, a register index, or a byte of a serialised state image. -/
abbrev Byte := BitVec 8

end Sys2Proof
end

