-- ==== Sys2Proof/Syntax.lean ====
section
/-! DEFINITION. What can be asked of the block and what its collaborators can answer: the
twenty-three operations of `spec/opcode_table.json` (rule R69), who may ask for one, the words of a
request at the operation port (R67), and the answers of the two oracles (R159, R160). -/

namespace Sys2Proof

/-- The seven exception kinds (R58). Their numeric codes are `ExcKind.code`. -/
inductive ExcKind where
  | irq | decrementer | trap | syscall | smi | dsi | isi
  deriving DecidableEq, Repr, Inhabited

/-- The twelve elements the register index of REG_READ and REG_WRITE can name (R70). -/
inductive Reg where
  | pc | npc | msr | srr0 | srr1 | decrementer | timebase | decFraction
  | interruptPending | esaShadow | hid0 | ibr
  deriving DecidableEq, Repr, Inhabited

/-- Who asks for an operation (R69): the system around the CPU, an opcode handler through its
result, or the block's own sequencer as a step of EXECUTE. -/
inductive Issuer where
  | host | handler | seq
  deriving DecidableEq, Repr, Inhabited

/-- The state image: eleven words in the order of R71. -/
structure Image where
  pc : Word
  npc : Word
  msr : Word
  srr0 : Word
  srr1 : Word
  decrementer : Word
  timebase : Word
  decFraction : Word
  interruptPending : Word
  esaShadow : Word
  hid0 : Word
  deriving DecidableEq, Repr, Inhabited

/-- The operations of the block, one constructor per row of the operation table (R69). -/
inductive Instr where
  /-- RESET, rule R180. -/
  | reset
  /-- EXECUTE, rule R155; the operand is the instruction budget. -/
  | execute (cycles : Word)
  /-- STATE_SAVE, rule R182. -/
  | stateSave
  /-- STATE_LOAD, rule R183; the operands are the eleven words of the image. -/
  | stateLoad (image : Image)
  /-- MSR_GET, rule R80. -/
  | msrGet
  /-- MSR_SET, rule R81. -/
  | msrSet (value : Word)
  /-- ENTER_SUPERVISOR, rule R91 (602). -/
  | enterSupervisor
  /-- RESTORE_FROM_SUPERVISOR, rule R92 (602). -/
  | restoreFromSupervisor
  /-- REG_READ, rule R184; the operand is the register index of R70. -/
  | regRead (index : Byte)
  /-- REG_WRITE, rule R185. -/
  | regWrite (index : Byte) (value : Word)
  /-- EXC_IRQ, rule R106. -/
  | excIrq
  /-- EXC_DECREMENTER, rule R107. -/
  | excDecrementer
  /-- EXC_TRAP, rule R108. -/
  | excTrap
  /-- EXC_SYSCALL, rule R109. -/
  | excSyscall
  /-- EXC_SMI, rule R110. -/
  | excSmi
  /-- EXC_DSI, rule R111 (603). -/
  | excDsi
  /-- EXC_ISI, rule R112 (603). -/
  | excIsi
  /-- SET_IRQ_LINE, rule R121; the operand is the `active` flag. -/
  | setIrqLine (active : Bool)
  /-- SET_SMI_LINE, rule R122. -/
  | setSmiLine (active : Bool)
  /-- CHECK, rule R123. -/
  | check
  /-- TU_ARM, rule R137; the operand is the budget. -/
  | tuArm (budget : Word)
  /-- TU_TICK, rule R140. -/
  | tuTick
  /-- TU_COMMIT, rules R141 to R143. -/
  | tuCommit
  deriving DecidableEq, Repr, Inhabited

/-- A request at the operation port (R67): who asks, the command word, and the operand words that
come with it (`words` is the command word followed by the operand words). -/
structure Request where
  issuer : Issuer
  words : List Word
  deriving DecidableEq, Repr, Inhabited

/-- An answer of `read_opcode` (R159, R169): an opaque instruction word, or a synchronous exception
raised by the fetch with a kind code in 0..255. -/
inductive FetchAnswer where
  | word (w : Word)
  | raise (kind : Byte)
  deriving DecidableEq, Repr, Inhabited

/-- An answer of `dispatch_opcode` (R160): the instruction retires with a finite list of effects, each
an operation with issuer HANDLER (R170), or it is aborted with a kind code in 0..255. -/
inductive HandlerAnswer where
  | resume (effects : List Instr)
  | raise (kind : Byte)
  deriving DecidableEq, Repr, Inhabited

/-- The handler table a PowerPC word is looked up in (R56): four primary opcodes select a
second-level table, every other one the default table. -/
inductive OpcodeTable where
  | primary | group19 | group31 | group59 | group63
  deriving DecidableEq, Repr, Inhabited

/-- The `table_index` argument of `dispatch_opcode` (R56). -/
structure TableIndex where
  table : OpcodeTable
  index : Nat
  deriving DecidableEq, Repr, Inhabited

end Sys2Proof
end

