-- ==== Sys2Proof/Config.lean ====
section
/-! DEFINITION. What one instance of the block fixes (the parameters of rule R7), and the values the
spec leaves to an external party or to an unstated formula: opaque constants without a body, so
that nothing can be proved of a particular value. -/

namespace Sys2Proof

/-- The two variants; they differ in the four points of R2 only. -/
inductive Variant where
  | v602 | v603
  deriving DecidableEq, Repr, Inhabited

/-- The sixteen named one-bit fields of `msr` (R14). -/
inductive MsrField where
  | pow | ee | pr | fp | fe0 | se | be | fe1 | ir | dr | ri | ile | le | ip | sa | ap
  deriving DecidableEq, Repr, Inhabited

/-- `MSR_LAYOUT` (R16): the bit index of each named field. -/
structure MsrLayout where
  pow : Fin 32
  ee : Fin 32
  pr : Fin 32
  fp : Fin 32
  fe0 : Fin 32
  se : Fin 32
  be : Fin 32
  fe1 : Fin 32
  ir : Fin 32
  dr : Fin 32
  ri : Fin 32
  ile : Fin 32
  le : Fin 32
  ip : Fin 32
  sa : Fin 32
  ap : Fin 32
  deriving DecidableEq, Repr, Inhabited

/-- The parameter `TRIGGER_OFFSET` (R138): the default formula (the decrementer at entry), or some
other formula, of which only that it is a function of decrementer and budget is known. -/
inductive TriggerRule where
  | entryDecrementer
  | other (which : Nat)
  deriving DecidableEq, Repr, Inhabited

/-- The open parameter `STATE_IMAGE_BYTE_ORDER` (R71). -/
inductive ByteOrder where
  | bigEndian | littleEndian
  deriving DecidableEq, Repr, Inhabited

/-- The parameters of one instance (R7), fixed for its life. `XLEN` is the width of `Word` and
`BUDGET_MAX` is `Config.budgetMax`. `device` and `callbackInstalled` belong to `line_callback` (R128). -/
structure Params where
  variant : Variant
  busMult : Nat
  resetVector : Word
  layout : MsrLayout
  irqNumber : Int
  device : Nat
  callbackInstalled : Bool
  dsiIsiClearsSmi : Bool
  triggerRule : TriggerRule
  imageByteOrder : ByteOrder
  deriving DecidableEq, Repr, Inhabited

/-- `LAYOUT_STD`, the default layout (R17). PRESUMED by the spec itself (general knowledge of the
603 family, conflict C10). -/
def Config.layoutStd : MsrLayout where
  ap := 23
  sa := 22
  pow := 18
  ile := 16
  ee := 15
  pr := 14
  fp := 13
  fe0 := 11
  se := 10
  be := 9
  fe1 := 8
  ip := 6
  ir := 5
  dr := 4
  ri := 1
  le := 0

/-- The parameters of the instance that `State.reset` describes. `resetVector`, `layout`,
`dsiIsiClearsSmi` and `triggerRule` are the spec's defaults (R7); the rest is OPEN there and a
DESIGN CHOICE here (notes/assumptions/3.md). -/
def Config.defaultParams : Params where
  variant := .v603
  busMult := 1
  resetVector := 0xfff00100
  layout := Config.layoutStd
  irqNumber := 0
  device := 0
  callbackInstalled := true
  dsiIsiClearsSmi := false
  triggerRule := .entryDecrementer
  imageByteOrder := .bigEndian

/-- The bit index of a field in a layout. -/
def MsrLayout.index (l : MsrLayout) : MsrField → Fin 32
  | .pow => l.pow
  | .ee => l.ee
  | .pr => l.pr
  | .fp => l.fp
  | .fe0 => l.fe0
  | .se => l.se
  | .be => l.be
  | .fe1 => l.fe1
  | .ir => l.ir
  | .dr => l.dr
  | .ri => l.ri
  | .ile => l.ile
  | .le => l.le
  | .ip => l.ip
  | .sa => l.sa
  | .ap => l.ap

/-- All sixteen fields, in the order of R14. -/
def MsrField.all : List MsrField :=
  [.pow, .ee, .pr, .fp, .fe0, .se, .be, .fe1, .ir, .dr, .ri, .ile, .le, .ip, .sa, .ap]

/-- The sixteen bit indices are distinct (R16). -/
abbrev MsrLayout.wf (l : MsrLayout) : Prop :=
  (MsrField.all.map l.index).Nodup

/-- The ranges R7, R16, R136 and R150 give the parameters: distinct bit indices, a bus multiplier of
at least 1, and a divisor that fits 32 bits. -/
abbrev Params.wf (p : Params) : Prop :=
  p.layout.wf ∧ 1 ≤ p.busMult ∧ p.busMult * 2 < 2 ^ 32

/-- `BUDGET_MAX` (R7, decision D11). -/
def Config.budgetMax : Word := 0x7ffffffe

/-- The free values. Each is a constant without a body. -/
opaque Config.readOpcode : (call : Nat) → (pc : Word) → (translated : Bool) → FetchAnswer

/-- The handler oracle (R160, R187): the answer to call number `call`, which may depend on every
register it can read (`regs` is `x[0..11]`), on the table index and on the word. -/
opaque Config.dispatchOpcode :
  (call : Nat) → (regs : List Word) → (index : TableIndex) → (raw : Word) → HandlerAnswer

/-- The primary opcode of an instruction word; which bits it is made of is not stated (R56). -/
opaque Config.primaryOpcode : Word → Nat

/-- The index into a second-level handler table; which bits it is made of is not stated (R56). -/
opaque Config.secondaryIndex : Word → Nat

/-- Any formula other than the default for `TRIGGER_OFFSET` (R138). -/
opaque Config.otherTriggerOffset : (which : Nat) → (decrementer : Word) → (budget : Word) → Word

end Sys2Proof
end

