-- ==== Sys2Proof/Machine/State.lean ====
section
/-! DEFINITION. The state of one CPU instance (spec/10_state.md), as plain data, and its value right
after reset. -/

namespace Sys2Proof.Machine

open Sys2Proof

/-- Why the machine stops. -/
inductive Fault where
  /-- Raised by `step` in a state with `fatal = 1` when no request is left to answer: the session was
  aborted by an unknown exception kind, and `kind` is the diagnostic (R113, R30, U2). Safe: the spec
  calls that state a fault that is never left. -/
  | sessionAborted (kind : Byte)
  deriving DecidableEq, Repr

/-- Why an instruction has no meaning. -/
inductive Refusal where
  /-- Raised by an arm of `exec` for an instruction that has no meaning yet; no arm does. Safe. -/
  | notModelled (mnemonic : String)
  deriving DecidableEq, Repr

/-- The answer to a request (R67, R191): none so far; accepted, with the result words; or the error
status of a request that was refused (R73). -/
inductive Response where
  | pending
  | done (rdata : List Word)
  | refused
  deriving DecidableEq, Repr

/-- What is handed to `read_opcode` (R41). -/
structure FetchRequest where
  addr : Word
  translated : Bool
  deriving DecidableEq, Repr

/-- What is handed to `dispatch_opcode` (R56). -/
structure DispatchRequest where
  index : TableIndex
  raw : Word
  deriving DecidableEq, Repr

/-- One notification of `line_callback` (R128). -/
structure Notice where
  device : Nat
  irqNumber : Int
  deriving DecidableEq, Repr

/-- All state of one CPU instance. The first group is ProcessorState (R10), the second what the port
and the collaborators see of the block, the third the model's own. -/
structure State where
  /-- The parameters of the instance (R7). No step changes them. -/
  params : Params
  /-- R11. -/
  pc : Word
  /-- R12. -/
  npc : Word
  /-- R13. -/
  msr : Word
  /-- R19. -/
  srr0 : Word
  /-- R20. -/
  srr1 : Word
  /-- `esa_shadow`, R21. -/
  esaShadow : BitVec 4
  /-- `interrupt_pending`, R22. -/
  interruptPending : BitVec 3
  /-- R23. -/
  decrementer : Word
  /-- R24. -/
  timebase : Word
  /-- `dec_fraction`, R25. -/
  decFraction : Word
  /-- R26. -/
  ibr : Word
  /-- R27. -/
  hid0 : Word
  /-- `budget_remaining`, R28. -/
  budgetRemaining : Word
  /-- `icount_start`, R29. -/
  icountStart : Word
  /-- `trigger_offset`, R29. -/
  triggerOffset : Word
  /-- R30. -/
  fatal : Bool
  /-- `fatal_kind`, R30. -/
  fatalKind : Byte
  /-- An EXECUTE is in progress (R72, R168). -/
  executing : Bool
  /-- The answer to the last request (R67, R191). -/
  response : Response
  /-- The last call of `read_opcode` (R41). -/
  lastFetch : Option FetchRequest
  /-- The last call of `dispatch_opcode` (R56, R187). -/
  lastDispatch : Option DispatchRequest
  /-- The notifications sent through `line_callback`, oldest first (R128). -/
  notices : List Notice
  /-- Model: who asked for the operation being served (R69). -/
  issuer : Issuer
  /-- Model: the requests that wait at the operation port, oldest first (R67). -/
  port : List Request
  /-- Model: answers `read_opcode` has ready; when there is none the free value is taken. -/
  fetchTape : List FetchAnswer
  /-- Model: answers `dispatch_opcode` has ready; when there is none the free value is taken. -/
  handlerTape : List HandlerAnswer
  /-- Model: how often `read_opcode` has been called. -/
  fetchCount : Nat
  /-- Model: how often `dispatch_opcode` has been called. -/
  handlerCount : Nat
  deriving DecidableEq, Repr

/-- A machine with parameters `p` right after power-on and RESET (R180, R230, R231). The registers
that RESET does not name are unspecified there; 0 is a DESIGN CHOICE (notes/assumptions/2.md). -/
def State.resetWith (p : Params) : State where
  params := p
  pc := p.resetVector
  npc := p.resetVector
  msr := 0x00000040
  srr0 := 0
  srr1 := 0
  esaShadow := 0
  interruptPending := 0
  decrementer := 0
  timebase := 0
  decFraction := 0
  ibr := 0
  hid0 := 1
  budgetRemaining := 0
  icountStart := 0
  triggerOffset := 0
  fatal := false
  fatalKind := 0
  executing := false
  response := .pending
  lastFetch := none
  lastDispatch := none
  notices := []
  issuer := .host
  port := []
  fetchTape := []
  handlerTape := []
  fetchCount := 0
  handlerCount := 0

/-- The machine right after reset, with the default parameters. -/
def State.reset : State := State.resetWith Config.defaultParams

end Sys2Proof.Machine
end

