-- ==== Sys2Proof/Machine/Flags.lean ====
section
/-! DEFINITION. The flags of the block and how they are computed: the named fields of `msr` and the
masks made of them (R14 to R18), the saved and the new status word of an exception entry (R103,
R105), the privilege shadow (R64, R91, R92), the bits of `interrupt_pending` (R57), and the level
outputs (R83). Everything is written for any `MSR_LAYOUT`. -/

namespace Sys2Proof.Machine

open Sys2Proof

/-- `MASK(F)` (R8). -/
def msrMask (l : MsrLayout) (f : MsrField) : Word := 1#32 <<< (l.index f).val

/-- `MASK(F, G, ...)` (R8). -/
def msrMasks (l : MsrLayout) : List MsrField → Word
  | [] => 0
  | f :: fs => msrMask l f ||| msrMasks l fs

/-- `MSR.F` (R8). -/
def msrBit (l : MsrLayout) (m : Word) (f : MsrField) : Bool := m.getLsbD (l.index f).val

/-- The fields cleared at every exception entry (R63). -/
def clearedFields : List MsrField :=
  [.pow, .ee, .pr, .fp, .fe0, .se, .be, .fe1, .ir, .dr, .ri]

/-- `CLEAR_MASK` (R18). -/
def clearMask (l : MsrLayout) : Word := msrMasks l clearedFields

/-- The fields the privilege shadow holds (R21). -/
def shadowFields : List MsrField := [.ee, .pr, .ap, .sa]

/-- `SHADOW_MASK` (R18). -/
def shadowMask (l : MsrLayout) : Word := msrMasks l shadowFields

/-- `SRR1_MASK`, the same in every layout (R16, R18). -/
def srr1Mask : Word := 0x0000ff73

/-- The marker that TRAP sets in `srr1` (R62). -/
def trapMarker : Word := 0x00020000

/-- `SRR1_OF(m, marker)` (R103). -/
def srr1Of (m marker : Word) : Word := (m &&& srr1Mask) ||| marker

/-- `MASK(F)` if the flag is set, else 0: a one-bit value placed at the field `F`. -/
def msrPlace (l : MsrLayout) (f : MsrField) (b : Bool) : Word := if b then msrMask l f else 0

/-- `MSR_AFTER(m)`: the eleven fields cleared, LE loaded from ILE of the old value (R105). -/
def msrAfterEntry (l : MsrLayout) (m : Word) : Word :=
  ((m &&& ~~~clearMask l) &&& ~~~msrMask l .le) ||| msrPlace l .le (msrBit l m .ile)

/-- The packing of `esa_shadow`: PR, AP, SA, EE from bit 3 down (R64). -/
def packShadow (l : MsrLayout) (m : Word) : BitVec 4 :=
  BitVec.ofBool (msrBit l m .pr) ++ BitVec.ofBool (msrBit l m .ap)
    ++ BitVec.ofBool (msrBit l m .sa) ++ BitVec.ofBool (msrBit l m .ee)

/-- `msr` after ENTER_SUPERVISOR (R91, R94). -/
def msrEntered (l : MsrLayout) (m : Word) : Word :=
  (m &&& ~~~msrMasks l [.ee, .pr, .ap]) ||| msrMask l .sa

/-- `msr` after RESTORE_FROM_SUPERVISOR with the shadow `sh` (R92). -/
def msrRestored (l : MsrLayout) (sh : BitVec 4) (m : Word) : Word :=
  (m &&& ~~~msrMasks l [.sa, .ee, .pr, .ap])
    ||| msrPlace l .ee (sh.getLsbD 0)
    ||| msrPlace l .sa (sh.getLsbD 1)
    ||| msrPlace l .ap (sh.getLsbD 2)
    ||| msrPlace l .pr (sh.getLsbD 3)

/-- The IRQ bit of `interrupt_pending` (R57). -/
def pendIrq : BitVec 3 := 0x1

/-- The DECREMENTER bit (R57). -/
def pendDecrementer : BitVec 3 := 0x2

/-- The SMI bit (R57). -/
def pendSmi : BitVec 3 := 0x4

/-- A field of the state's `msr`. -/
def State.msrF (s : State) (f : MsrField) : Bool := msrBit s.params.layout s.msr f

/-- Level output `xlate_fetch` (R83). -/
def State.xlateFetch (s : State) : Bool := s.msrF .ir

/-- Level output `xlate_data` (R83). -/
def State.xlateData (s : State) : Bool := s.msrF .dr

/-- Level output `little_endian` (R83). -/
def State.littleEndian (s : State) : Bool := s.msrF .le

/-- Level output `problem_state` (R83). -/
def State.problemState (s : State) : Bool := s.msrF .pr

end Sys2Proof.Machine
end

