-- ==== Sys2Proof/WellFormed.lean ====
section
/-! DEFINITION. Which instructions are well formed: the operand ranges of the operation table
(`spec/opcode_table.json`) that the operand's width does not already enforce. -/

namespace Sys2Proof

/-- Why an operand is out of its range. -/
inductive Defect where
  /-- A register index above 11 (R70, R73 d). -/
  | indexAboveEleven
  /-- An EXECUTE budget above `BUDGET_MAX` (R156, R73 g). -/
  | budgetAboveMax
  deriving DecidableEq, Repr

/-- The operand defect of an instruction, if it has one. TU_ARM has no range check of its own in R73
(notes/assumptions/18.md). -/
def Instr.defect : Instr → Option Defect
  | .regRead k => if 11 < k.toNat then some .indexAboveEleven else none
  | .regWrite k _ => if 11 < k.toNat then some .indexAboveEleven else none
  | .execute n => if Config.budgetMax.toNat < n.toNat then some .budgetAboveMax else none
  | .reset => none
  | .stateSave => none
  | .stateLoad _ => none
  | .msrGet => none
  | .msrSet _ => none
  | .enterSupervisor => none
  | .restoreFromSupervisor => none
  | .excIrq => none
  | .excDecrementer => none
  | .excTrap => none
  | .excSyscall => none
  | .excSmi => none
  | .excDsi => none
  | .excIsi => none
  | .setIrqLine _ => none
  | .setSmiLine _ => none
  | .check => none
  | .tuArm _ => none
  | .tuTick => none
  | .tuCommit => none

/-- An instruction is well formed when no operand has a defect. -/
def Instr.wf (i : Instr) : Bool := i.defect.isNone

end Sys2Proof
end

