-- ==== Sys2Proof/Decode.lean ====
section
/-! DEFINITION. The command words of the operation port (spec/30_encoding.md Part B): the decoder,
total on any list of words and rejecting by name; the encoder; the words of a table row; and the
textual form of R75 and R76. -/

namespace Sys2Proof

/-- The field `OP`, bits 31..24 of a command word (R67). -/
def cwOp (cw : Word) : Byte := cw.extractLsb' 24 8

/-- The field `SUB`, bits 23..16 (R67). -/
def cwSub (cw : Word) : Byte := cw.extractLsb' 16 8

/-- The reserved field `Z`, bits 15..1 (R67). -/
def cwZ (cw : Word) : BitVec 15 := cw.extractLsb' 1 15

/-- The flag `A`, bit 0 (R67). -/
def cwA (cw : Word) : Bool := cw.getLsbD 0

/-- A command word from its fields (R67). -/
def assembleCw (op sub : Byte) (a : Bool) : Word :=
  op ++ sub ++ (0 : BitVec 15) ++ BitVec.ofBool a

/-- Why a request is rejected by the decoder: the clauses of R73 that the words alone decide, and
operand words that are missing (notes/assumptions/6.md). -/
inductive DecodeError where
  /-- There is no command word at all. -/
  | noCommandWord
  /-- `OP` is none of the seventeen values of R69 (R73 a). -/
  | unknownOp (op : Byte)
  /-- `Z` is not 0 (R73 b). -/
  | reservedBitsSet
  /-- `SUB` is not 0 on an operation that has no `SUB` (R73 c). -/
  | subNotZero
  /-- `A` is not 0 on an operation that has no `A` (R73 c). -/
  | flagNotZero
  /-- The operation takes more operand words than came. -/
  | operandMissing
  /-- An operand is out of range (R73 d and g). -/
  | badOperand (d : Defect)
  deriving DecidableEq, Repr

/-- What the words of a request stand for: an operation of the table; a dispatch request with a kind
code that is no row of the table, which R74 gives a meaning; or a malformed request. -/
inductive Decoded where
  | instr (i : Instr)
  | unknownKind (k : Byte)
  | rejected (e : DecodeError)
  deriving DecidableEq, Repr

/-- An operation whose operands are in range, or its rejection (R73 d, g). -/
def checkedOperand (i : Instr) : Decoded :=
  match i.defect with
  | none => .instr i
  | some d => .rejected (.badOperand d)

/-- An operation that has neither `SUB` nor `A` (formats N, Q and W, R68). -/
def decodePlain (sub : Byte) (a : Bool) (d : Decoded) : Decoded :=
  if sub ≠ 0 then .rejected .subNotZero
  else if a then .rejected .flagNotZero
  else d

/-- An operation that has an `A` and no `SUB` (format B, R68). -/
def decodeFlag (sub : Byte) (i : Instr) : Decoded :=
  if sub ≠ 0 then .rejected .subNotZero else .instr i

/-- An operation that has a `SUB` and no `A` (formats K and R, R68). `A` is tested before the kind code
of format K, so an unknown kind with `A = 1` is rejected (R73 c) and is not the request of R74: DESIGN
CHOICE (notes/assumptions/28.md). -/
def decodeSub (a : Bool) (d : Decoded) : Decoded :=
  if a then .rejected .flagNotZero else d

/-- One operand word (R68). Words beyond it are not looked at. -/
def decodeOne (wdata : List Word) (f : Word → Instr) : Decoded :=
  match wdata with
  | w :: _ => checkedOperand (f w)
  | [] => .rejected .operandMissing

/-- The eleven operand words of STATE_LOAD, in the order of R71. -/
def decodeImage (wdata : List Word) : Decoded :=
  match wdata with
  | w0 :: w1 :: w2 :: w3 :: w4 :: w5 :: w6 :: w7 :: w8 :: w9 :: w10 :: _ =>
    .instr (.stateLoad ⟨w0, w1, w2, w3, w4, w5, w6, w7, w8, w9, w10⟩)
  | _ => .rejected .operandMissing

/-- `OP = 0x20`: the seven kinds of R58, and every other code (R74). -/
def decodeKind (k : Byte) : Decoded :=
  if k = 1 then .instr .excIrq
  else if k = 2 then .instr .excDecrementer
  else if k = 3 then .instr .excTrap
  else if k = 4 then .instr .excSyscall
  else if k = 5 then .instr .excSmi
  else if k = 6 then .instr .excDsi
  else if k = 7 then .instr .excIsi
  else .unknownKind k

/-- The operation code map of R69, on a command word whose `Z` is 0. -/
def decodeOp (op sub : Byte) (a : Bool) (wdata : List Word) : Decoded :=
  if op = 0x01 then decodePlain sub a (.instr .reset)
  else if op = 0x02 then decodePlain sub a (decodeOne wdata .execute)
  else if op = 0x03 then decodePlain sub a (.instr .stateSave)
  else if op = 0x04 then decodePlain sub a (decodeImage wdata)
  else if op = 0x10 then decodePlain sub a (.instr .msrGet)
  else if op = 0x11 then decodePlain sub a (decodeOne wdata .msrSet)
  else if op = 0x12 then decodePlain sub a (.instr .enterSupervisor)
  else if op = 0x13 then decodePlain sub a (.instr .restoreFromSupervisor)
  else if op = 0x14 then decodeSub a (checkedOperand (.regRead sub))
  else if op = 0x15 then decodeSub a (decodeOne wdata (.regWrite sub))
  else if op = 0x20 then decodeSub a (decodeKind sub)
  else if op = 0x30 then decodeFlag sub (.setIrqLine a)
  else if op = 0x31 then decodeFlag sub (.setSmiLine a)
  else if op = 0x32 then decodePlain sub a (.instr .check)
  else if op = 0x40 then decodePlain sub a (decodeOne wdata .tuArm)
  else if op = 0x41 then decodePlain sub a (.instr .tuTick)
  else if op = 0x42 then decodePlain sub a (.instr .tuCommit)
  else .rejected (.unknownOp op)

/-- The decoder: the command word first, then the operand words (R67 to R69, R73, R74). `Z` is tested
before `OP` and `SUB`, so an unknown kind with `Z` not 0 is rejected (R73 b) and is not the request of
R74: DESIGN CHOICE (notes/assumptions/28.md). -/
def decode (words : List Word) : Decoded :=
  match words with
  | [] => .rejected .noCommandWord
  | cw :: wdata =>
    if cwZ cw ≠ 0 then .rejected .reservedBitsSet
    else decodeOp (cwOp cw) (cwSub cw) (cwA cw) wdata

/-- The words of an image, in the order of R71. -/
def imageWords (m : Image) : List Word :=
  [m.pc, m.npc, m.msr, m.srr0, m.srr1, m.decrementer, m.timebase, m.decFraction,
   m.interruptPending, m.esaShadow, m.hid0]

/-- The words of a well-formed instruction: its command word and its operand words (R67 to R69). -/
def encode : Instr → List Word
  | .reset => [assembleCw 0x01 0 false]
  | .execute n => [assembleCw 0x02 0 false, n]
  | .stateSave => [assembleCw 0x03 0 false]
  | .stateLoad m => assembleCw 0x04 0 false :: imageWords m
  | .msrGet => [assembleCw 0x10 0 false]
  | .msrSet v => [assembleCw 0x11 0 false, v]
  | .enterSupervisor => [assembleCw 0x12 0 false]
  | .restoreFromSupervisor => [assembleCw 0x13 0 false]
  | .regRead k => [assembleCw 0x14 k false]
  | .regWrite k v => [assembleCw 0x15 k false, v]
  | .excIrq => [assembleCw 0x20 1 false]
  | .excDecrementer => [assembleCw 0x20 2 false]
  | .excTrap => [assembleCw 0x20 3 false]
  | .excSyscall => [assembleCw 0x20 4 false]
  | .excSmi => [assembleCw 0x20 5 false]
  | .excDsi => [assembleCw 0x20 6 false]
  | .excIsi => [assembleCw 0x20 7 false]
  | .setIrqLine a => [assembleCw 0x30 0 a]
  | .setSmiLine a => [assembleCw 0x31 0 a]
  | .check => [assembleCw 0x32 0 false]
  | .tuArm n => [assembleCw 0x40 0 false, n]
  | .tuTick => [assembleCw 0x41 0 false]
  | .tuCommit => [assembleCw 0x42 0 false]

/-- The match value of an instruction's row of the operation table (R69). -/
def rowMatch : Instr → Word
  | .reset => 0x01000000
  | .execute _ => 0x02000000
  | .stateSave => 0x03000000
  | .stateLoad _ => 0x04000000
  | .msrGet => 0x10000000
  | .msrSet _ => 0x11000000
  | .enterSupervisor => 0x12000000
  | .restoreFromSupervisor => 0x13000000
  | .regRead _ => 0x14000000
  | .regWrite _ _ => 0x15000000
  | .excIrq => 0x20010000
  | .excDecrementer => 0x20020000
  | .excTrap => 0x20030000
  | .excSyscall => 0x20040000
  | .excSmi => 0x20050000
  | .excDsi => 0x20060000
  | .excIsi => 0x20070000
  | .setIrqLine _ => 0x30000000
  | .setSmiLine _ => 0x31000000
  | .check => 0x32000000
  | .tuArm _ => 0x40000000
  | .tuTick => 0x41000000
  | .tuCommit => 0x42000000

/-- The mask of an instruction's row of the operation table (R69). -/
def rowMask : Instr → Word
  | .regRead _ => 0xff00ffff
  | .regWrite _ _ => 0xff00ffff
  | .setIrqLine _ => 0xfffffffe
  | .setSmiLine _ => 0xfffffffe
  | .reset => 0xffffffff
  | .execute _ => 0xffffffff
  | .stateSave => 0xffffffff
  | .stateLoad _ => 0xffffffff
  | .msrGet => 0xffffffff
  | .msrSet _ => 0xffffffff
  | .enterSupervisor => 0xffffffff
  | .restoreFromSupervisor => 0xffffffff
  | .excIrq => 0xffffffff
  | .excDecrementer => 0xffffffff
  | .excTrap => 0xffffffff
  | .excSyscall => 0xffffffff
  | .excSmi => 0xffffffff
  | .excDsi => 0xffffffff
  | .excIsi => 0xffffffff
  | .check => 0xffffffff
  | .tuArm _ => 0xffffffff
  | .tuTick => 0xffffffff
  | .tuCommit => 0xffffffff

/-- The words of a table row: `nbits` bits of `w`, the first word lowest, every bit above them 0, as
many words as the longest request has (STATE_LOAD, twelve). -/
def tableWords (nbits w : Nat) : List Word :=
  (List.range 12).map fun k => BitVec.ofNat 32 (w % 2 ^ nbits / 2 ^ (32 * k))

/-- The instruction the decoder reads from an instruction whose bits are `w`. -/
def decodeTableWord (nbits w : Nat) : Option Instr :=
  match decode (tableWords nbits w) with
  | .instr i => some i
  | .unknownKind _ => none
  | .rejected _ => none

/-- The name of a register in text (R70, R75). -/
def regText (k : Byte) : String :=
  ["pc", "npc", "msr", "srr0", "srr1", "decrementer", "timebase", "dec_fraction",
   "interrupt_pending", "esa_shadow", "hid0", "ibr"].getD k.toNat "none"

/-- A number in text; R8 lets decimal stand for itself (notes/assumptions/25.md). -/
def wordText (w : Word) : String := toString w.toNat

/-- The `active` flag in text (R75). -/
def flagText (a : Bool) : String := if a then "1" else "0"

/-- An operation in text: the mnemonic, then the operands (R75). -/
def instrText : Instr → String
  | .reset => "RESET"
  | .execute n => "EXECUTE " ++ wordText n
  | .stateSave => "STATE_SAVE"
  | .stateLoad m => "STATE_LOAD " ++ " ".intercalate ((imageWords m).map wordText)
  | .msrGet => "MSR_GET"
  | .msrSet v => "MSR_SET " ++ wordText v
  | .enterSupervisor => "ENTER_SUPERVISOR"
  | .restoreFromSupervisor => "RESTORE_FROM_SUPERVISOR"
  | .regRead k => "REG_READ " ++ regText k
  | .regWrite k v => "REG_WRITE " ++ regText k ++ ", " ++ wordText v
  | .excIrq => "EXC_IRQ"
  | .excDecrementer => "EXC_DECREMENTER"
  | .excTrap => "EXC_TRAP"
  | .excSyscall => "EXC_SYSCALL"
  | .excSmi => "EXC_SMI"
  | .excDsi => "EXC_DSI"
  | .excIsi => "EXC_ISI"
  | .setIrqLine a => "SET_IRQ_LINE " ++ flagText a
  | .setSmiLine a => "SET_SMI_LINE " ++ flagText a
  | .check => "CHECK"
  | .tuArm n => "TU_ARM " ++ wordText n
  | .tuTick => "TU_TICK"
  | .tuCommit => "TU_COMMIT"

/-- The pseudo-operation `RAISE k` (R76): `OP = 0x20` with `SUB = k`. -/
def raiseWord (k : Byte) : Word := assembleCw 0x20 k false

/-- The pseudo-operation `ESA` (R76). -/
def pseudoEsa : Instr := .enterSupervisor

/-- The pseudo-operation `RSA` (R76). -/
def pseudoRsa : Instr := .restoreFromSupervisor

end Sys2Proof
end

