-- ==== Sys2Proof/Machine/Operands.lean ====
section
/-! DEFINITION. The operand forms of the operations: the register index of REG_READ and REG_WRITE
(R70), the state image of STATE_SAVE and STATE_LOAD (R71), the exception kind code (R58), and the
table index handed to the handler (R56). -/

namespace Sys2Proof.Machine

open Sys2Proof

/-- The element a register index names (R70); none above 11. -/
def regOfIndex (k : Byte) : Option Reg :=
  if k = 0 then some .pc
  else if k = 1 then some .npc
  else if k = 2 then some .msr
  else if k = 3 then some .srr0
  else if k = 4 then some .srr1
  else if k = 5 then some .decrementer
  else if k = 6 then some .timebase
  else if k = 7 then some .decFraction
  else if k = 8 then some .interruptPending
  else if k = 9 then some .esaShadow
  else if k = 10 then some .hid0
  else if k = 11 then some .ibr
  else none

/-- `x[i]` read as a word; the narrow elements are zero-extended (R70). -/
def State.readReg (s : State) : Reg → Word
  | .pc => s.pc
  | .npc => s.npc
  | .msr => s.msr
  | .srr0 => s.srr0
  | .srr1 => s.srr1
  | .decrementer => s.decrementer
  | .timebase => s.timebase
  | .decFraction => s.decFraction
  | .interruptPending => s.interruptPending.setWidth 32
  | .esaShadow => s.esaShadow.setWidth 32
  | .hid0 => s.hid0
  | .ibr => s.ibr

/-- `x[i] <- v`; of a narrow element only its low bits are kept (R70, D29). -/
def State.writeReg (s : State) (r : Reg) (v : Word) : State :=
  match r with
  | .pc => { s with pc := v }
  | .npc => { s with npc := v }
  | .msr => { s with msr := v }
  | .srr0 => { s with srr0 := v }
  | .srr1 => { s with srr1 := v }
  | .decrementer => { s with decrementer := v }
  | .timebase => { s with timebase := v }
  | .decFraction => { s with decFraction := v }
  | .interruptPending => { s with interruptPending := v.setWidth 3 }
  | .esaShadow => { s with esaShadow := v.setWidth 4 }
  | .hid0 => { s with hid0 := v }
  | .ibr => { s with ibr := v }

/-- The twelve elements in index order: what a handler can read (R70, R160). -/
def State.regWords (s : State) : List Word :=
  [s.readReg .pc, s.readReg .npc, s.readReg .msr, s.readReg .srr0, s.readReg .srr1,
   s.readReg .decrementer, s.readReg .timebase, s.readReg .decFraction,
   s.readReg .interruptPending, s.readReg .esaShadow, s.readReg .hid0, s.readReg .ibr]

/-- The registers a handler may write with REG_WRITE: indices 1, 3, 4, 10 and 11 (R170, R73 i). -/
def handlerMayWrite : Reg → Bool
  | .npc => true
  | .srr0 => true
  | .srr1 => true
  | .hid0 => true
  | .ibr => true
  | .pc => false
  | .msr => false
  | .decrementer => false
  | .timebase => false
  | .decFraction => false
  | .interruptPending => false
  | .esaShadow => false

/-- The state image (R71, R182). -/
def State.image (s : State) : Image where
  pc := s.readReg .pc
  npc := s.readReg .npc
  msr := s.readReg .msr
  srr0 := s.readReg .srr0
  srr1 := s.readReg .srr1
  decrementer := s.readReg .decrementer
  timebase := s.readReg .timebase
  decFraction := s.readReg .decFraction
  interruptPending := s.readReg .interruptPending
  esaShadow := s.readReg .esaShadow
  hid0 := s.readReg .hid0

/-- The state with the eleven elements of an image (R183). -/
def State.loadImage (s : State) (m : Image) : State :=
  { s with
    pc := m.pc
    npc := m.npc
    msr := m.msr
    srr0 := m.srr0
    srr1 := m.srr1
    decrementer := m.decrementer
    timebase := m.timebase
    decFraction := m.decFraction
    interruptPending := m.interruptPending.setWidth 3
    esaShadow := m.esaShadow.setWidth 4
    hid0 := m.hid0 }

/-- A word as four bytes, in the open byte order of a serialised image (R71). -/
def wordBytes (o : ByteOrder) (w : Word) : List Byte :=
  let low := [w.extractLsb' 0 8, w.extractLsb' 8 8, w.extractLsb' 16 8, w.extractLsb' 24 8]
  match o with
  | .littleEndian => low
  | .bigEndian => low.reverse

/-- A serialised image: the eleven words in order (R71). No operation of the block makes one. -/
def State.imageBytes (s : State) : List Byte :=
  (imageWords s.image).flatMap (wordBytes s.params.imageByteOrder)

/-- The code of a kind (R58). -/
def kindCode : ExcKind → Byte
  | .irq => 1
  | .decrementer => 2
  | .trap => 3
  | .syscall => 4
  | .smi => 5
  | .dsi => 6
  | .isi => 7

/-- The kinds a variant knows (R58, R2 c). -/
def kindKnown (v : Variant) : ExcKind → Bool
  | .dsi => v == .v603
  | .isi => v == .v603
  | .irq => true
  | .decrementer => true
  | .trap => true
  | .syscall => true
  | .smi => true

/-- The kind a code stands for on a variant; none for an unknown kind (R58, R113). -/
def kindOfCode (v : Variant) (k : Byte) : Option ExcKind :=
  [ExcKind.irq, .decrementer, .trap, .syscall, .smi, .dsi, .isi].find?
    fun K => kindCode K == k && kindKnown v K

/-- The table index of a word (R56). -/
def tableIndexOf (w : Word) : TableIndex :=
  let p := Config.primaryOpcode w
  if p = 19 then ⟨.group19, Config.secondaryIndex w⟩
  else if p = 31 then ⟨.group31, Config.secondaryIndex w⟩
  else if p = 59 then ⟨.group59, Config.secondaryIndex w⟩
  else if p = 63 then ⟨.group63, Config.secondaryIndex w⟩
  else ⟨.primary, p⟩

end Sys2Proof.Machine
end

