-- ==== Sys2Proof/Machine/Ops.lean ====
section
/-! DEFINITION. The named operations the meanings are made of: which requests are admitted and how
they are answered (R69, R72, R73, R191); taking an exception (R101 to R105, R113 to R116) and the
return from one (R205); the lines and the priority check (R121 to R126); the timing unit (R136 to
R143); the calls of the two collaborators (R41, R187). -/

namespace Sys2Proof.Machine

open Sys2Proof

/-! ### Requests: admission and answer -/

/-- Why an operation is refused (R73). The requester sees only that it is. -/
inductive Denial where
  /-- An operand is out of range (R73 d and g). -/
  | operand
  /-- This issuer may not ask for this operation (R69, R73 f). -/
  | issuer
  /-- The host asks while an EXECUTE is in progress (R72, R168, R73 f). -/
  | invocationInProgress
  /-- `fatal = 1` (R30, R73 h). -/
  | fatalSession
  /-- The operation does not exist on the 603 (R97, R73 e). -/
  | absentOnVariant
  /-- A handler may not write this register (R147, R170, R73 i). -/
  | closedToHandler
  deriving DecidableEq, Repr

/-- The issuers of an operation (R69). -/
def issuersOf : Instr → List Issuer
  | .reset => [.host]
  | .execute _ => [.host]
  | .stateSave => [.host]
  | .stateLoad _ => [.host]
  | .msrGet => [.host, .handler, .seq]
  | .msrSet _ => [.host, .handler, .seq]
  | .enterSupervisor => [.handler]
  | .restoreFromSupervisor => [.handler]
  | .regRead _ => [.host, .handler]
  | .regWrite _ _ => [.host, .handler]
  | .excIrq => [.seq]
  | .excDecrementer => [.seq]
  | .excTrap => [.seq]
  | .excSyscall => [.seq]
  | .excSmi => [.seq]
  | .excDsi => [.seq]
  | .excIsi => [.seq]
  | .setIrqLine _ => [.host, .handler]
  | .setSmiLine _ => [.host, .handler]
  | .check => [.seq]
  | .tuArm _ => [.seq]
  | .tuTick => [.seq]
  | .tuCommit => [.seq]

/-- The operations that are still answered while `fatal = 1` (R30). -/
def admittedWhenFatal : Instr → Bool
  | .regRead _ => true
  | .msrGet => true
  | .stateSave => true
  | .reset => false
  | .execute _ => false
  | .stateLoad _ => false
  | .msrSet _ => false
  | .enterSupervisor => false
  | .restoreFromSupervisor => false
  | .regWrite _ _ => false
  | .excIrq => false
  | .excDecrementer => false
  | .excTrap => false
  | .excSyscall => false
  | .excSmi => false
  | .excDsi => false
  | .excIsi => false
  | .setIrqLine _ => false
  | .setSmiLine _ => false
  | .check => false
  | .tuArm _ => false
  | .tuTick => false
  | .tuCommit => false

/-- The operations that exist on the 602 only (R90, R97). -/
def only602 : Instr → Bool
  | .enterSupervisor => true
  | .restoreFromSupervisor => true
  | .reset => false
  | .execute _ => false
  | .stateSave => false
  | .stateLoad _ => false
  | .msrGet => false
  | .msrSet _ => false
  | .regRead _ => false
  | .regWrite _ _ => false
  | .excIrq => false
  | .excDecrementer => false
  | .excTrap => false
  | .excSyscall => false
  | .excSmi => false
  | .excDsi => false
  | .excIsi => false
  | .setIrqLine _ => false
  | .setSmiLine _ => false
  | .check => false
  | .tuArm _ => false
  | .tuTick => false
  | .tuCommit => false

/-- REG_WRITE of a register that is closed to a handler (R73 i). -/
def closedToHandler : Instr → Bool
  | .regWrite k _ => !((regOfIndex k).any handlerMayWrite)
  | .reset => false
  | .execute _ => false
  | .stateSave => false
  | .stateLoad _ => false
  | .msrGet => false
  | .msrSet _ => false
  | .enterSupervisor => false
  | .restoreFromSupervisor => false
  | .regRead _ => false
  | .excIrq => false
  | .excDecrementer => false
  | .excTrap => false
  | .excSyscall => false
  | .excSmi => false
  | .excDsi => false
  | .excIsi => false
  | .setIrqLine _ => false
  | .setSmiLine _ => false
  | .check => false
  | .tuArm _ => false
  | .tuTick => false
  | .tuCommit => false

/-- The kind a dispatch request asks for (R69). -/
def requestedKind : Instr → Option ExcKind
  | .excIrq => some .irq
  | .excDecrementer => some .decrementer
  | .excTrap => some .trap
  | .excSyscall => some .syscall
  | .excSmi => some .smi
  | .excDsi => some .dsi
  | .excIsi => some .isi
  | .reset => none
  | .execute _ => none
  | .stateSave => none
  | .stateLoad _ => none
  | .msrGet => none
  | .msrSet _ => none
  | .enterSupervisor => none
  | .restoreFromSupervisor => none
  | .regRead _ => none
  | .regWrite _ _ => none
  | .setIrqLine _ => none
  | .setSmiLine _ => none
  | .check => none
  | .tuArm _ => none
  | .tuTick => none
  | .tuCommit => none

/-- A dispatch request for a kind that the variant does not know: DSI and ISI on the 602 (R74). -/
def State.asksUnknownKind (s : State) (i : Instr) : Bool :=
  (requestedKind i).any fun K => !kindKnown s.params.variant K

/-- Whether the operation `i`, asked for by `s.issuer`, is refused, and by which clause of R73. The
request of R74 is not refused, whoever makes it and whenever, but for a session that is already fatal
(notes/assumptions/19.md). -/
def State.denial (s : State) (i : Instr) : Option Denial :=
  if !i.wf then some .operand
  else if s.asksUnknownKind i then (if s.fatal then some .fatalSession else none)
  else if !(issuersOf i).contains s.issuer then some .issuer
  else if s.issuer == .host && s.executing then some .invocationInProgress
  else if s.fatal && !admittedWhenFatal i then some .fatalSession
  else if only602 i && s.params.variant == .v603 then some .absentOnVariant
  else if s.issuer == .handler && closedToHandler i then some .closedToHandler
  else none

/-- The error answer; no other state changes (R73, R8 `refuse`). -/
def State.refuse (s : State) : State := { s with response := .refused }

/-- The answer of an accepted operation with its result words (R67). -/
def State.answer (s : State) (rdata : List Word) : State := { s with response := .done rdata }

/-- Every meaning: refuse the operation if R73 says so, else do `f`. -/
def State.serve (s : State) (i : Instr) (f : State → State) : Host.Outcome State Fault Refusal :=
  match s.denial i with
  | some _ => .next s.refuse
  | none => .next (f s)

/-! ### Taking an exception -/

/-- The vector offset of a kind (R59). -/
def kindOffset : ExcKind → Word
  | .irq => 0x500
  | .decrementer => 0x900
  | .trap => 0x700
  | .syscall => 0xc00
  | .smi => 0x1400
  | .dsi => 0x300
  | .isi => 0x400

/-- The asynchronous kinds (R58). -/
def kindAsync : ExcKind → Bool
  | .irq => true
  | .decrementer => true
  | .smi => true
  | .trap => false
  | .syscall => false
  | .dsi => false
  | .isi => false

/-- The extra `srr1` bits of a kind (R62). -/
def kindMarker : ExcKind → Word
  | .trap => trapMarker
  | .irq => 0
  | .decrementer => 0
  | .syscall => 0
  | .smi => 0
  | .dsi => 0
  | .isi => 0

/-- The bits of `interrupt_pending` a dispatch of the kind clears (R115, R116). -/
def kindClears (p : Params) : ExcKind → BitVec 3
  | .irq => pendIrq
  | .decrementer => pendDecrementer
  | .smi => pendSmi
  | .trap => 0
  | .syscall => 0
  | .dsi => if p.dsiIsiClearsSmi then pendSmi else 0
  | .isi => if p.dsiIsiClearsSmi then pendSmi else 0

/-- The vector base with `MSR.IP` as in `m` (R104). -/
def State.vectorBase (s : State) (m : Word) : Word :=
  if msrBit s.params.layout m .ip then 0xfff00000
  else match s.params.variant with
    | .v602 => s.ibr
    | .v603 => 0x00000000

/-- `SRR0_OF(K)` (R102). -/
def State.srr0Of (s : State) (K : ExcKind) : Word := if kindAsync K then s.npc else s.pc

/-- The five writes of an exception entry, all from the values at entry (R101). -/
def State.enter (s : State) (K : ExcKind) : State :=
  { s with
    srr0 := s.srr0Of K
    srr1 := srr1Of s.msr (kindMarker K)
    msr := msrAfterEntry s.params.layout s.msr
    npc := s.vectorBase s.msr ||| kindOffset K
    interruptPending := s.interruptPending &&& ~~~kindClears s.params K }

/-- The gate: an asynchronous kind is dispatched only with `MSR.EE = 1` (R114). -/
def State.gatedOff (s : State) (K : ExcKind) : Bool := kindAsync K && !s.msrF .ee

/-- `DISPATCH(K)` for a known kind (R101). -/
def State.dispatch (s : State) (K : ExcKind) : State :=
  if s.gatedOff K then s else s.enter K

/-- `FATAL(k)`: the diagnostic is kept, nothing else of ProcessorState is written, and an EXECUTE in
progress ends without its exit step and without an answer (R113, R172). -/
def State.abort (s : State) (k : Byte) : State :=
  { s with fatal := true, fatalKind := k, executing := false, response := .pending }

/-- Taking an exception, by kind code: the one entry of the dispatcher (R101, R113). The test for an
unknown kind comes before the gate and before every write. -/
def State.raise (s : State) (k : Byte) : State :=
  match kindOfCode s.params.variant k with
  | some K => s.dispatch K
  | none => s.abort k

/-- A dispatch asked for at the port: the entry is answered without result words, the fatal abort by
nothing but the flag (R191). -/
def State.raiseAnswered (s : State) (k : Byte) : State :=
  match kindOfCode s.params.variant k with
  | some K => (s.dispatch K).answer []
  | none => s.abort k

/-- The return from an exception, which is no operation of the block: the effects an external handler
answers with, after reading `srr0` and `srr1` (R205, D25). -/
def returnEffects (newMsr target : Word) : List Instr := [.msrSet newMsr, .regWrite 1 target]

/-! ### The interrupt controller -/

/-- The notification of `line_callback`, dropped if no callback is installed (R121, R128). -/
def State.notify (s : State) : State :=
  if s.params.callbackInstalled then
    { s with notices := s.notices ++ [⟨s.params.device, s.params.irqNumber⟩] }
  else s

/-- `set_irq_line(active)` (R121). -/
def State.irqLine (s : State) (active : Bool) : State :=
  if active then State.notify { s with interruptPending := s.interruptPending ||| pendIrq } else s

/-- `set_smi_line(active)` (R122). -/
def State.smiLine (s : State) (active : Bool) : State :=
  if active then { s with interruptPending := s.interruptPending ||| pendSmi } else s

/-- The kind CHECK dispatches, in the fixed order IRQ, DECREMENTER, SMI (R123, R124). -/
def pendingKind (pend : BitVec 3) : Option ExcKind :=
  if pend.getLsbD 0 then some .irq
  else if pend.getLsbD 1 then some .decrementer
  else if pend.getLsbD 2 then some .smi
  else none

/-- `check()` (R123). -/
def State.checkPending (s : State) : State :=
  if s.msrF .ee then
    match pendingKind s.interruptPending with
    | some K => s.dispatch K
    | none => s
  else s

/-! ### The timing unit -/

/-- `divisor` (R136). -/
def Params.divisor (p : Params) : Nat := p.busMult * 2

/-- The sentinel of `trigger_offset` (R139). -/
def triggerSentinel : Word := 0x7fffffff

/-- `TRIGGER_OFFSET(dec, budget)` (R138). -/
def triggerOffsetOf (p : Params) (dec budget : Word) : Word :=
  match p.triggerRule with
  | .entryDecrementer => dec
  | .other n => Config.otherTriggerOffset n dec budget

/-- TU_ARM (R137). -/
def State.arm (s : State) (budget : Word) : State :=
  { s with
    icountStart := budget
    triggerOffset :=
      if s.decrementer - budget > s.decrementer then
        triggerOffsetOf s.params s.decrementer budget
      else triggerSentinel }

/-- The running instruction counter, `icount_start - budget_remaining` (R29, R140). -/
def State.consumed (s : State) : Word := s.icountStart - s.budgetRemaining

/-- TU_TICK (R140). -/
def State.tick (s : State) : State :=
  if s.consumed = s.triggerOffset then
    { s with interruptPending := s.interruptPending ||| pendDecrementer }
  else s

/-- TU_COMMIT: the timebase (R141), and the decrementer of the 602 (R142) or of the 603 (R143). -/
def State.commit (s : State) : State :=
  let t := s.consumed.toNat + s.decFraction.toNat
  let timebase := s.timebase + BitVec.ofNat 32 (s.consumed.toNat / 4)
  match s.params.variant with
  | .v602 =>
    { s with
      timebase := timebase
      decrementer := s.decrementer - BitVec.ofNat 32 (s.consumed.toNat / Params.divisor s.params) }
  | .v603 =>
    { s with
      timebase := timebase
      decrementer := s.decrementer - BitVec.ofNat 32 (t / Params.divisor s.params)
      decFraction := BitVec.ofNat 32 (t % Params.divisor s.params) }

/-! ### Host operations -/

/-- The five writes of RESET (R180). -/
def State.resetRegs (s : State) : State :=
  { s with
    pc := s.params.resetVector
    npc := s.params.resetVector
    msr := 0x00000040
    hid0 := 1
    interruptPending := 0 }

/-- E2 and E3 of EXECUTE: the invocation is entered; its answer comes at its exit (R155, R156). -/
def State.beginInvocation (s : State) (cycles : Word) : State :=
  State.arm { s with budgetRemaining := cycles, executing := true, response := .pending } cycles

/-- X1 and X2 of EXECUTE (R166, R167). -/
def State.endInvocation (s : State) : State :=
  State.answer { s.commit with executing := false } [s.consumed]

/-! ### The collaborators -/

/-- The call of `read_opcode` at L2, with `translated = MSR.IR` read now (R41, R159). -/
def State.fetch (s : State) : FetchAnswer × State :=
  let t := { s with lastFetch := some ⟨s.pc, s.xlateFetch⟩, fetchCount := s.fetchCount + 1 }
  match s.fetchTape with
  | a :: rest => (a, { t with fetchTape := rest })
  | [] => (Config.readOpcode s.fetchCount s.pc s.xlateFetch, t)

/-- The call of `dispatch_opcode` at L4 (R160, R187). -/
def State.callHandler (s : State) (w : Word) : HandlerAnswer × State :=
  let t := { s with
    lastDispatch := some ⟨tableIndexOf w, w⟩, handlerCount := s.handlerCount + 1 }
  match s.handlerTape with
  | a :: rest => (a, { t with handlerTape := rest })
  | [] => (Config.dispatchOpcode s.handlerCount s.regWords (tableIndexOf w) w, t)

end Sys2Proof.Machine
end

