-- ==== Sys2Proof/Machine/Exceptions.lean ====
section
/-! DEFINITION. The dispatch requests, one per exception kind (spec/42_exception_dispatcher.md). Each
is the shared `State.raiseAnswered` at the kind's code (R58); on the 602 the codes of DSI and ISI
are unknown kinds (R113). -/

namespace Sys2Proof.Machine

open Sys2Proof

/-- EXC_IRQ (R106). -/
def execExcIrq (s : State) : Host.Outcome State Fault Refusal :=
  s.serve .excIrq fun s => s.raiseAnswered (kindCode .irq)

/-- EXC_DECREMENTER (R107). -/
def execExcDecrementer (s : State) : Host.Outcome State Fault Refusal :=
  s.serve .excDecrementer fun s => s.raiseAnswered (kindCode .decrementer)

/-- EXC_TRAP (R108). -/
def execExcTrap (s : State) : Host.Outcome State Fault Refusal :=
  s.serve .excTrap fun s => s.raiseAnswered (kindCode .trap)

/-- EXC_SYSCALL (R109). -/
def execExcSyscall (s : State) : Host.Outcome State Fault Refusal :=
  s.serve .excSyscall fun s => s.raiseAnswered (kindCode .syscall)

/-- EXC_SMI (R110). -/
def execExcSmi (s : State) : Host.Outcome State Fault Refusal :=
  s.serve .excSmi fun s => s.raiseAnswered (kindCode .smi)

/-- EXC_DSI (R111). -/
def execExcDsi (s : State) : Host.Outcome State Fault Refusal :=
  s.serve .excDsi fun s => s.raiseAnswered (kindCode .dsi)

/-- EXC_ISI (R112). -/
def execExcIsi (s : State) : Host.Outcome State Fault Refusal :=
  s.serve .excIsi fun s => s.raiseAnswered (kindCode .isi)

end Sys2Proof.Machine
end

