-- ==== Sys2Proof/Machine/HostOps.lean ====
section
/-! DEFINITION. The host operations: RESET, EXECUTE, STATE_SAVE, STATE_LOAD, REG_READ, REG_WRITE
(spec/46_host_interface.md, spec/45_execution_loop.md R155). -/

namespace Sys2Proof.Machine

open Sys2Proof

/-- RESET (R180). -/
def execReset (s : State) : Host.Outcome State Fault Refusal :=
  s.serve .reset fun s => s.resetRegs.answer []

/-- EXECUTE (R155): steps E1 to E3. The loop and the exit are the steps that follow while
`executing` is set (Machine/Loop.lean). -/
def execExecute (cycles : Word) (s : State) : Host.Outcome State Fault Refusal :=
  s.serve (.execute cycles) fun s => s.beginInvocation cycles

/-- STATE_SAVE (R182). -/
def execStateSave (s : State) : Host.Outcome State Fault Refusal :=
  s.serve .stateSave fun s => s.answer (imageWords s.image)

/-- STATE_LOAD (R183). -/
def execStateLoad (image : Image) (s : State) : Host.Outcome State Fault Refusal :=
  s.serve (.stateLoad image) fun s => (s.loadImage image).answer []

/-- REG_READ (R184). -/
def execRegRead (index : Byte) (s : State) : Host.Outcome State Fault Refusal :=
  s.serve (.regRead index) fun s =>
    match regOfIndex index with
    | some r => s.answer [s.readReg r]
    | none => s.refuse

/-- REG_WRITE (R185). -/
def execRegWrite (index : Byte) (value : Word) (s : State) : Host.Outcome State Fault Refusal :=
  s.serve (.regWrite index value) fun s =>
    match regOfIndex index with
    | some r => (s.writeReg r value).answer []
    | none => s.refuse

end Sys2Proof.Machine
end

