-- ==== Sys2Proof/Machine/Interrupts.lean ====
section
/-! DEFINITION. The interrupt controller: SET_IRQ_LINE, SET_SMI_LINE, CHECK
(spec/43_interrupt_controller.md). -/

namespace Sys2Proof.Machine

open Sys2Proof

/-- SET_IRQ_LINE (R121). -/
def execSetIrqLine (active : Bool) (s : State) : Host.Outcome State Fault Refusal :=
  s.serve (.setIrqLine active) fun s => (s.irqLine active).answer []

/-- SET_SMI_LINE (R122). -/
def execSetSmiLine (active : Bool) (s : State) : Host.Outcome State Fault Refusal :=
  s.serve (.setSmiLine active) fun s => (s.smiLine active).answer []

/-- CHECK (R123). -/
def execCheck (s : State) : Host.Outcome State Fault Refusal :=
  s.serve .check fun s => s.checkPending.answer []

end Sys2Proof.Machine
end

