-- ==== Sys2Proof/Machine/Msr.lean ====
section
/-! DEFINITION. The MSR register: MSR_GET and MSR_SET (spec/40_msr_register.md). -/

namespace Sys2Proof.Machine

open Sys2Proof

/-- MSR_GET (R80). -/
def execMsrGet (s : State) : Host.Outcome State Fault Refusal :=
  s.serve .msrGet fun s => s.answer [s.msr]

/-- MSR_SET: an unconditional replace, with no dispatch and no masking (R81). -/
def execMsrSet (value : Word) (s : State) : Host.Outcome State Fault Refusal :=
  s.serve (.msrSet value) fun s => State.answer { s with msr := value } []

end Sys2Proof.Machine
end

