-- ==== Sys2Proof/Machine/Shadow.lean ====
section
/-! DEFINITION. The privilege shadow register of the 602: ENTER_SUPERVISOR and
RESTORE_FROM_SUPERVISOR (spec/41_privilege_shadow.md). -/

namespace Sys2Proof.Machine

open Sys2Proof

/-- ENTER_SUPERVISOR (R91, R94). -/
def execEnterSupervisor (s : State) : Host.Outcome State Fault Refusal :=
  s.serve .enterSupervisor fun s =>
    State.answer
      { s with
        esaShadow := packShadow s.params.layout s.msr
        msr := msrEntered s.params.layout s.msr } []

/-- RESTORE_FROM_SUPERVISOR; the shadow is read and kept (R92). -/
def execRestoreFromSupervisor (s : State) : Host.Outcome State Fault Refusal :=
  s.serve .restoreFromSupervisor fun s =>
    State.answer { s with msr := msrRestored s.params.layout s.esaShadow s.msr } []

end Sys2Proof.Machine
end

