-- ==== Sys2Proof/Machine/Timing.lean ====
section
/-! DEFINITION. The timing unit: TU_ARM, TU_TICK, TU_COMMIT (spec/44_timing_unit.md). -/

namespace Sys2Proof.Machine

open Sys2Proof

/-- TU_ARM (R137). -/
def execTuArm (budget : Word) (s : State) : Host.Outcome State Fault Refusal :=
  s.serve (.tuArm budget) fun s => (s.arm budget).answer []

/-- TU_TICK (R140). -/
def execTuTick (s : State) : Host.Outcome State Fault Refusal :=
  s.serve .tuTick fun s => s.tick.answer []

/-- TU_COMMIT (R141 to R143). -/
def execTuCommit (s : State) : Host.Outcome State Fault Refusal :=
  s.serve .tuCommit fun s => s.commit.answer []

end Sys2Proof.Machine
end

