-- ==== Sys2Proof/Machine/Dispatch.lean ====
section
/-! DEFINITION. One arm per operation of the table, each one call of its meaning. -/

namespace Sys2Proof.Machine

open Sys2Proof

def exec (i : Instr) (s : State) : Host.Outcome State Fault Refusal :=
  match i with
  | .reset => Sys2Proof.Machine.execReset s
  | .execute cycles => Sys2Proof.Machine.execExecute cycles s
  | .stateSave => Sys2Proof.Machine.execStateSave s
  | .stateLoad image => Sys2Proof.Machine.execStateLoad image s
  | .msrGet => Sys2Proof.Machine.execMsrGet s
  | .msrSet value => Sys2Proof.Machine.execMsrSet value s
  | .enterSupervisor => Sys2Proof.Machine.execEnterSupervisor s
  | .restoreFromSupervisor => Sys2Proof.Machine.execRestoreFromSupervisor s
  | .regRead index => Sys2Proof.Machine.execRegRead index s
  | .regWrite index value => Sys2Proof.Machine.execRegWrite index value s
  | .excIrq => Sys2Proof.Machine.execExcIrq s
  | .excDecrementer => Sys2Proof.Machine.execExcDecrementer s
  | .excTrap => Sys2Proof.Machine.execExcTrap s
  | .excSyscall => Sys2Proof.Machine.execExcSyscall s
  | .excSmi => Sys2Proof.Machine.execExcSmi s
  | .excDsi => Sys2Proof.Machine.execExcDsi s
  | .excIsi => Sys2Proof.Machine.execExcIsi s
  | .setIrqLine active => Sys2Proof.Machine.execSetIrqLine active s
  | .setSmiLine active => Sys2Proof.Machine.execSetSmiLine active s
  | .check => Sys2Proof.Machine.execCheck s
  | .tuArm budget => Sys2Proof.Machine.execTuArm budget s
  | .tuTick => Sys2Proof.Machine.execTuTick s
  | .tuCommit => Sys2Proof.Machine.execTuCommit s

end Sys2Proof.Machine
end

