-- ==== Sys2Proof/Machine/Loop.lean ====
section
/-! DEFINITION. The execution loop (spec/45_execution_loop.md): one iteration as a total function
(R171), the effects of the handler (R170), the escape (R163); and how one request at the port is
served. -/

namespace Sys2Proof.Machine

open Sys2Proof

/-- One effect of a handler: the operation with issuer HANDLER. A refused effect, or an operation that
is none of a handler's, changes nothing and the others are still applied; its answer goes to the handler
and leaves the port alone (R170; notes/assumptions/15.md). -/
def State.applyEffect (s : State) (e : Instr) : State :=
  if (issuersOf e).contains .handler then
    match exec e { s with issuer := .handler } with
    | .next t => { t with issuer := s.issuer, response := s.response }
    | .fault _ => s
    | .refused _ => s
  else s

/-- The effects of a handler, in list order (R160, R170). -/
def State.applyEffects (s : State) : List Instr → State
  | [] => s
  | e :: es => (s.applyEffect e).applyEffects es

/-- `ESCAPE(k)`: S1, S2 and the fatal stop of S3 (R163, R172). -/
def State.escape (s : State) (k : Byte) : State := State.raise { s with npc := s.pc } k

/-- L5 to L7: the budget, the trigger compare, the check (R162, R165). -/
def State.retire (s : State) : State :=
  (State.tick { s with budgetRemaining := s.budgetRemaining - 1 }).checkPending

/-- L4 to L7, once the word `w` has been fetched (R160 to R165). -/
def State.runWord (s : State) (w : Word) : State :=
  match State.callHandler { s with npc := s.pc + 4 } w with
  | (.raise k, t) => t.escape k
  | (.resume es, t) => (t.applyEffects es).retire

/-- One iteration of the loop, L1 to L7 (R155, R158, R159, R169). -/
def State.iterate (s : State) : State :=
  match State.fetch { s with pc := s.npc } with
  | (.raise k, t) => t.escape k
  | (.word w, t) => t.runWord w

/-- While an EXECUTE is in progress: the next iteration, or the exit when the budget is used up
(R157, R166). -/
def State.advance (s : State) : State :=
  if s.budgetRemaining = 0 then s.endInvocation else s.iterate

/-- A dispatch request with an unknown kind code, whoever makes it: the fatal abort (R74, R113), or
refused if the session is over already (R30, R73 h). -/
def State.serveUnknownKind (s : State) (k : Byte) : State :=
  if s.fatal then s.refuse else s.raiseAnswered k

/-- One request at the port, already taken from it: decoded and run, or refused. -/
def State.serveRequest (s : State) (r : Request) : Host.Outcome State Fault Refusal :=
  match decode r.words with
  | .instr i => exec i { s with issuer := r.issuer }
  | .unknownKind k => .next (State.serveUnknownKind { s with issuer := r.issuer } k)
  | .rejected _ => .next (State.refuse { s with issuer := r.issuer })

/-- Between invocations: the oldest request at the port; without one the block waits, or stops with
the fault if the session was aborted. -/
def State.servePort (s : State) : Host.Outcome State Fault Refusal :=
  match s.port with
  | r :: rest => State.serveRequest { s with port := rest } r
  | [] => if s.fatal then .fault (.sessionAborted s.fatalKind) else .next s

/-- The issuer under which a table row is run when it is placed at the port: the first the row's
operation admits (R69). -/
def naturalIssuer (words : List Word) : Issuer :=
  match decode words with
  | .instr i => (issuersOf i).headD .seq
  | .unknownKind _ => .seq
  | .rejected _ => .host

end Sys2Proof.Machine
end

