-- ==== Sys2Proof/Machine/Step.lean ====
section
/-! DEFINITION. One step of the machine: an iteration or the exit of the invocation in progress, else
one request of the port. -/

namespace Sys2Proof.Machine

open Sys2Proof

/-- One step (R155, R168, R171, R181). -/
def step (s : State) : Host.Outcome State Fault Refusal :=
  if s.executing then .next s.advance else s.servePort

/-- `s` with an instruction of the operation table placed where `step` takes its next one: at the head
of the port, under an issuer that may ask for it, with no invocation in progress
(notes/assumptions/24.md). -/
def State.withFetchWord (s : State) (nbits w : Nat) : State :=
  { s with
    executing := false
    port := ⟨naturalIssuer (tableWords nbits w), tableWords nbits w⟩ :: s.port }

end Sys2Proof.Machine
end

