-- ==== Sys2Proof/Safety.lean ====
section
/-! DEFINITION. What a sound state and a safe run of the block are. -/

namespace Sys2Proof.Machine

open Sys2Proof

/-- While an invocation is in progress its budget lies within what EXECUTE admitted (R28, R156). -/
abbrev State.budgetSound (s : State) : Prop :=
  s.executing = true →
    s.budgetRemaining.toNat ≤ s.icountStart.toNat ∧ s.icountStart.toNat ≤ Config.budgetMax.toNat

/-- A fatal session has no invocation in progress (R30, R172). -/
abbrev State.fatalSound (s : State) : Prop := s.fatal = true → s.executing = false

/-- The invariant of the machine: parameters in range (R7), budget and fatal flag sound. -/
abbrev State.sound (s : State) : Prop := s.params.wf ∧ s.budgetSound ∧ s.fatalSound

/-- A state that the spec calls a fault is one with `fatal = 1` (R30); every other one is safe. -/
abbrev State.safe (s : State) : Prop := s.fatal = false

/-- The one step of a fatal session that is left: the fault with its diagnostic (R113, U2). -/
abbrev State.sessionOver (s : State) : Prop :=
  step s = .fault (.sessionAborted s.fatalKind)

/-! Who asks, in a state where nothing of R73 but the operation itself could refuse it. -/

/-- The host asks, between invocations, in a live session (R72). -/
abbrev State.asHost (s : State) : Prop :=
  s.issuer = .host ∧ s.executing = false ∧ s.fatal = false

/-- A handler asks, in a live session (R170). -/
abbrev State.asHandler (s : State) : Prop := s.issuer = .handler ∧ s.fatal = false

/-- The sequencer asks, in a live session (R69). -/
abbrev State.asSeq (s : State) : Prop := s.issuer = .seq ∧ s.fatal = false

/-- The host asks between invocations, or someone else asks (R72). -/
abbrev State.hostWaits (s : State) : Prop := s.issuer = .host → s.executing = false

end Sys2Proof.Machine
end

