-- ==== Sys2Proof/Certificates/Slice0/Obligations.lean ====
section
/-! DEFINITION. The statements for the provers. An equation `exec i s = .next { s with … }` states the
operation's whole frame: every part of the state that is not named keeps its value. -/

open Sys2Proof Sys2Proof.Machine

/-! ### Requests, words and steps -/

/-- Between invocations a step takes the oldest request of the port and runs the operation its words
decode to (R67, R181), under the issuer of the request. The list of waiting requests is the model's
choice (log 6). It rests on the spec's own decisions and resolutions D3 (the encoding of requests,
their issuers and refusals) and D24 (when operations of the host and line calls may occur); log 22. -/
def Obligations.StepRunsTheDecodedOperation : Prop :=
  ∀ (s : State) (r : Request) (rest : List Request) (i : Instr),
    s.executing = false → s.port = r :: rest → decode r.words = .instr i →
    step s = exec i { s with port := rest, issuer := r.issuer }

/-- A malformed request is answered with the error status and changes nothing else (R73). That the
refusal is a next state is the model's reading (log 7), and that an unknown kind with `Z` or `A` not 0
is malformed is its choice (log 28). It rests on the spec's own decision D3 (the encoding of requests,
their issuers and refusals); log 22. -/
def Obligations.MalformedRequestsChangeNothing : Prop :=
  ∀ (s : State) (r : Request) (rest : List Request) (e : DecodeError),
    s.executing = false → s.port = r :: rest → decode r.words = .rejected e →
    step s = .next { s with port := rest, issuer := r.issuer, response := .refused }

/-- A dispatch request for a kind that the variant does not know is not refused, whoever makes it: it
sets `fatal` with the code and writes nothing else (R74, R113). On the 602 the rows of DSI and ISI are
such requests. In a session that is over already it is refused, as R30 says of every operation; that
R30 stands there before R74 is the model's reading (log 19), and so is that the abort gives no answer
(log 8). It rests on the spec's own decisions and resolutions D17 (the abort is the sticky flag
`fatal`, which closes all but three operations) and D34 (DSI and ISI are unknown kinds on the 602);
log 22. That requests wait in a list (log 6), and that a refusal is an answer of a next state and
never the outcome `refused` (log 7) are the model's choice or reading. -/
def Obligations.UnknownKindRequestIsFatal : Prop :=
  ∀ (s : State) (r : Request) (rest : List Request) (k : Byte),
    s.executing = false → s.port = r :: rest →
    (decode r.words = .unknownKind k ∨
      s.params.variant = .v602 ∧
        (decode r.words = .instr .excDsi ∧ k = 6 ∨ decode r.words = .instr .excIsi ∧ k = 7)) →
    (s.fatal = false →
      step s = .next { s with
        port := rest, issuer := r.issuer, fatal := true, fatalKind := k, response := .pending }) ∧
    (s.fatal = true →
      step s = .next { s with port := rest, issuer := r.issuer, response := .refused })

/-- `RAISE k` for a code of the table is that row's operation; for 0 and 8 to 255 it is an unknown
kind (R58, R74, R76). That words after the command word are not looked at is the model's choice (log
6). It rests on the spec's own decisions and resolutions D3 (the encoding of requests, their issuers
and refusals) and D4 (the codes of the kinds); log 22. -/
def Obligations.RaiseWordDecodesByKindCode : Prop :=
  ∀ (k : Byte) (ws : List Word),
    decode (raiseWord k :: ws) =
      if k = 1 then .instr .excIrq
      else if k = 2 then .instr .excDecrementer
      else if k = 3 then .instr .excTrap
      else if k = 4 then .instr .excSyscall
      else if k = 5 then .instr .excSmi
      else if k = 6 then .instr .excDsi
      else if k = 7 then .instr .excIsi
      else .unknownKind k

/-- Command words of the spec's own listings decode to what the listings say (95_test_vectors.md P1,
P2 and P4). It rests on the spec's own decision D3 (the encoding of requests, their issuers and
refusals); log 22. -/
def Obligations.ListedCommandWordsDecode : Prop :=
  decode [0x01000000] = .instr .reset ∧
  decode [0x11000000, 0x00008040] = .instr (.msrSet 0x00008040) ∧
  decode [0x15050000, 3] = .instr (.regWrite 5 3) ∧
  decode [0x150b0000, 0x00120000] = .instr (.regWrite 11 0x00120000) ∧
  decode [0x30000001] = .instr (.setIrqLine true) ∧
  decode [0x02000000, 8] = .instr (.execute 8) ∧
  decode [0x12000000] = .instr .enterSupervisor ∧
  decode [0x13000000] = .instr .restoreFromSupervisor ∧
  decode [0x14020000] = .instr (.regRead 2)

/-- Decoding the encoding of a well-formed instruction gives it back, whatever words follow. That
words beyond the format are ignored is the model's choice (log 6). It rests on the spec's own decision
D3 (the encoding of requests, their issuers and refusals); log 22. -/
def Obligations.DecodeOfEncodeIsTheInstruction : Prop :=
  ∀ (i : Instr) (rest : List Word), i.wf = true → decode (encode i ++ rest) = .instr i

/-- Whatever decodes is well formed, and its words begin with its encoding: each operation has one
encoding, and no bit of it is ignored. That further words may follow is the model's choice (log 6). It
rests on the spec's own decision D3 (the encoding of requests, their issuers and refusals); log 22. -/
def Obligations.DecodedWordsAreTheEncoding : Prop :=
  ∀ (ws : List Word) (i : Instr), decode ws = .instr i →
    i.wf = true ∧ ∃ rest, ws = encode i ++ rest

/-- A command word is selected by one row of the operation table at most, and the decoder answers with
the operation of that row (R69): two rows that select a word are rows of one operation; the row of a
decoded operation selects its word; and a word that a row selects decodes to that row's operation, or
is rejected for its operands alone. `ctorIdx` is the operation, without its operands. That further
words do not change the operation is the model's choice (log 6). It rests on the spec's own decision
D3 (the encoding of requests, their issuers and refusals); log 22. -/
def Obligations.NoTwoRowsShareAWord : Prop :=
  ∀ (cw : Word) (ws : List Word) (i : Instr),
    (∀ j : Instr, cw &&& rowMask i = rowMatch i → cw &&& rowMask j = rowMatch j →
      i.ctorIdx = j.ctorIdx) ∧
    (decode (cw :: ws) = .instr i → cw &&& rowMask i = rowMatch i) ∧
    (cw &&& rowMask i = rowMatch i →
      (∃ j, decode (cw :: ws) = .instr j ∧ j.ctorIdx = i.ctorIdx) ∨
      decode (cw :: ws) = .rejected .operandMissing ∨
      ∃ d, decode (cw :: ws) = .rejected (.badOperand d))

/-- The malformed command words of R73 a to d and g are rejected, each clause for every word. That the
clauses of `Z` and `A` hold of `OP = 0x20` with an unknown kind code too, where R74 could be read
otherwise, is the model's choice (log 28). It rests on the spec's own decision D3 (the encoding of
requests, their issuers and refusals); log 22. -/
def Obligations.MalformedWordsAreRejected : Prop :=
  ∀ (cw : Word) (ws : List Word),
    (cw.extractLsb' 24 8 ∉ [0x01#8, 0x02#8, 0x03#8, 0x04#8, 0x10#8, 0x11#8, 0x12#8, 0x13#8, 0x14#8,
        0x15#8, 0x20#8, 0x30#8, 0x31#8, 0x32#8, 0x40#8, 0x41#8, 0x42#8] →
      ∃ e, decode (cw :: ws) = .rejected e) ∧
    (cw.extractLsb' 1 15 ≠ 0#15 → ∃ e, decode (cw :: ws) = .rejected e) ∧
    (cw.extractLsb' 16 8 ≠ 0#8 → cw.extractLsb' 24 8 ∉ [0x14#8, 0x15#8, 0x20#8] →
      ∃ e, decode (cw :: ws) = .rejected e) ∧
    (cw.getLsbD 0 = true → cw.extractLsb' 24 8 ∉ [0x30#8, 0x31#8] →
      ∃ e, decode (cw :: ws) = .rejected e) ∧
    (11 < (cw.extractLsb' 16 8).toNat → cw.extractLsb' 24 8 ∈ [0x14#8, 0x15#8] →
      ∃ e, decode (cw :: ws) = .rejected e) ∧
    (0x7ffffffe < (ws.headD 0).toNat → cw.extractLsb' 24 8 = 0x02#8 →
      ∃ e, decode (cw :: ws) = .rejected e)

/-- The clauses of R73 that depend on the state, and the refusals of R30, R97, R156 and U21: the
operation changes nothing but the answer (log 7, log 10). Of a wrong issuer, or a host that asks
during an invocation, the request of R74 is not refused: on the 602 EXC_DSI and EXC_ISI are never
among them (StorageKindsAreFatalOn602). It rests on the spec's own decisions and resolutions D3 (the
encoding of requests, their issuers and refusals), D11 (the range of the budget and the cost of one
unit for each retired instruction, as C15 resolves), D17 (the abort is the sticky flag `fatal`, which
closes all but three operations), D21 (the register indices, and which of them a handler may write),
D24 (when operations of the host and line calls may occur) and D27 (the shadow operations are refused
on the 603); log 22. That R74, which names no issuer, is meant for everyone (log 19) is the model's
choice or reading. -/
def Obligations.InadmissibleOperationsChangeNothing : Prop :=
  ∀ (i : Instr) (s : State),
    ((s.issuer ∉ issuersOf i ∨ s.issuer = .host ∧ s.executing = true) ∧
        (s.params.variant = .v602 → i ≠ .excDsi ∧ i ≠ .excIsi) ∨
      (∃ k, i = .regRead k ∧ 11 < k.toNat) ∨
      (∃ k v, i = .regWrite k v ∧ 11 < k.toNat) ∨
      (∃ n, i = .execute n ∧ 0x7ffffffe < n.toNat) ∨
      ((i = .enterSupervisor ∨ i = .restoreFromSupervisor) ∧ s.params.variant = .v603) ∨
      (s.fatal = true ∧ (∀ k, i ≠ .regRead k) ∧ i ≠ .msrGet ∧ i ≠ .stateSave) ∨
      (s.issuer = .handler ∧ ∃ k v, i = .regWrite k v ∧ k ∉ [1#8, 3#8, 4#8, 10#8, 11#8])) →
    exec i s = .next { s with response := .refused }

/-- Who may ask for what: the issuer column of R69. It rests on the spec's own decision D3 (the
encoding of requests, their issuers and refusals); log 22. -/
def Obligations.IssuersOfEveryOperation : Prop :=
  (∀ i, i = .reset ∨ (∃ n, i = .execute n) ∨ i = .stateSave ∨ (∃ m, i = .stateLoad m) →
    ∀ q, q ∈ issuersOf i ↔ q = .host) ∧
  (∀ i, i = .msrGet ∨ (∃ v, i = .msrSet v) → ∀ q, q ∈ issuersOf i) ∧
  (∀ i, i = .enterSupervisor ∨ i = .restoreFromSupervisor → ∀ q, q ∈ issuersOf i ↔ q = .handler) ∧
  (∀ i, (∃ k, i = .regRead k) ∨ (∃ k v, i = .regWrite k v) ∨ (∃ a, i = .setIrqLine a) ∨
      (∃ a, i = .setSmiLine a) → ∀ q, q ∈ issuersOf i ↔ q ≠ .seq) ∧
  (∀ i, i = .excIrq ∨ i = .excDecrementer ∨ i = .excTrap ∨ i = .excSyscall ∨ i = .excSmi ∨
      i = .excDsi ∨ i = .excIsi ∨ i = .check ∨ (∃ n, i = .tuArm n) ∨ i = .tuTick ∨ i = .tuCommit →
    ∀ q, q ∈ issuersOf i ↔ q = .seq)

/-- No step ends in the outcome `refused`, and it stops with a fault only in an aborted session with
no request left to answer. Where the fault stands, and that a live block waits when there is no request, are the model's
choice (log 8, log 9). It rests on the spec's own decision D17 (the abort is the sticky flag `fatal`,
which closes all but three operations); log 22. That requests wait in a list (log 6), and that a
refusal is an answer of a next state and never the outcome `refused` (log 7) are the model's choice or
reading. -/
def Obligations.EveryLiveStepGoesOn : Prop :=
  ∀ s : State,
    (s.executing = false ∧ s.port = [] ∧ s.fatal = true →
      step s = .fault (.sessionAborted s.fatalKind)) ∧
    (¬ (s.executing = false ∧ s.port = [] ∧ s.fatal = true) → ∃ t, step s = .next t)

/-! ### Invariants -/

/-- Parameters in range, the budget within what EXECUTE admitted, and no invocation in a fatal
session: every step keeps it, from every state. It rests on the spec's own decisions and resolutions
D11 (the range of the budget and the cost of one unit for each retired instruction, as C15 resolves),
D12 (the bus multiplier is an integer of at least 1) and D17 (the abort is the sticky flag `fatal`,
which closes all but three operations); log 22. That an iteration is a step of its own (log 11), and
that an operation that is none of a handler's effects is skipped and the answers of effects stay away
from the port (log 15) are the model's choice or reading. -/
def Obligations.StepKeepsTheStateSound : Prop :=
  ∀ s t : State, s.sound → step s = .next t → t.sound

/-- The state after reset is sound. It rests on the spec's own decision D17 (the abort is the sticky
flag `fatal`, which closes all but three operations); log 22. -/
def Obligations.ResetStateIsSound : Prop := State.reset.sound

/-- The reset literals (R65, R180), and `fatal = 0` at power-on (R230, the spec's decisions D16 and
D17; log 22). -/
def Obligations.ResetStateHoldsTheLiterals : Prop :=
  State.reset.msr = 0x40 ∧ State.reset.hid0 = 1 ∧ State.reset.interruptPending = 0 ∧
  State.reset.pc = State.reset.params.resetVector ∧
  State.reset.npc = State.reset.params.resetVector ∧ State.reset.fatal = false

/-- The sentinel is out of reach: in a sound invocation the running counter is not `0x7fffffff`, so a
TU_TICK against the sentinel does nothing (R139). It rests on the spec's own decision D11 (the range
of the budget and the cost of one unit for each retired instruction, as C15 resolves); log 22. -/
def Obligations.SentinelIsNeverReached : Prop :=
  ∀ s : State, s.sound → s.executing = true →
    s.icountStart - s.budgetRemaining ≠ 0x7fffffff ∧
    (s.triggerOffset = 0x7fffffff → s.tick = s)

/-! ### Host operations -/

/-- RESET: the five writes, and nothing else (R180). That the rest keeps its value is the spec's own
decision D16 (log 22). -/
def Obligations.ResetWritesFiveElements : Prop :=
  ∀ s : State, s.asHost →
    exec .reset s = .next { s with
      pc := s.params.resetVector, npc := s.params.resetVector, msr := 0x00000040, hid0 := 1,
      interruptPending := 0, response := .done [] }

/-- EXECUTE: the invocation is entered with the budget and the prediction of TU_ARM. An underflow is
predicted exactly when the budget exceeds the decrementer (R137, R156). The iterations are steps of
their own and the answer comes at the exit (log 11). It rests on the spec's own decisions and
resolutions D9 (the trigger formula is a parameter, and counts one for one as C12 resolves) and D11
(the range of the budget and the cost of one unit for each retired instruction, as C15 resolves); log
22. That a trigger formula other than the default is an opaque function (log 16) is the model's choice
or reading. -/
def Obligations.ExecuteEntersTheInvocation : Prop :=
  ∀ (s : State) (n : Word), s.asHost → n.toNat ≤ 0x7ffffffe →
    exec (.execute n) s = .next { s with
      budgetRemaining := n, icountStart := n, executing := true, response := .pending,
      triggerOffset :=
        if s.decrementer.toNat < n.toNat then triggerOffsetOf s.params s.decrementer n
        else 0x7fffffff }

/-- STATE_SAVE answers the eleven words in the order of R71 and changes nothing else, in a fatal
session too (R182, R30). It rests on the spec's own decisions and resolutions D17 (the abort is the
sticky flag `fatal`, which closes all but three operations), D22 (the words of the state image) and
D29 (the widths of the latch and the shadow); log 22. -/
def Obligations.StateSaveAnswersElevenWords : Prop :=
  ∀ s : State, s.issuer = .host → s.executing = false →
    exec .stateSave s = .next { s with
      response := .done [s.pc, s.npc, s.msr, s.srr0, s.srr1, s.decrementer, s.timebase,
        s.decFraction, s.interruptPending.setWidth 32, s.esaShadow.setWidth 32, s.hid0] }

/-- STATE_LOAD replaces the eleven elements and nothing else: no dispatch, no callback, `ibr` and
`fatal` unchanged (R183). It rests on the spec's own decisions and resolutions D22 (the words of the
state image) and D29 (the widths of the latch and the shadow); log 22. -/
def Obligations.StateLoadReplacesElevenElements : Prop :=
  ∀ (s : State) (m : Image), s.asHost →
    exec (.stateLoad m) s = .next { s with
      pc := m.pc, npc := m.npc, msr := m.msr, srr0 := m.srr0, srr1 := m.srr1,
      decrementer := m.decrementer, timebase := m.timebase, decFraction := m.decFraction,
      interruptPending := m.interruptPending.setWidth 3, esaShadow := m.esaShadow.setWidth 4,
      hid0 := m.hid0, response := .done [] }

/-- The words that a STATE_SAVE of `s` answered, sent as a STATE_LOAD to any live state `t`, restore
the eleven elements exactly (R183). It rests on the spec's own decisions and resolutions D22 (the
words of the state image) and D29 (the widths of the latch and the shadow); log 22. -/
def Obligations.SavedImageLoadsBack : Prop :=
  ∀ (s t u : State) (ws : List Word),
    s.issuer = .host → s.executing = false → t.asHost →
    exec .stateSave s = .next u → u.response = .done ws →
    ∃ m v, decode (0x04000000 :: ws) = .instr (.stateLoad m) ∧ exec (.stateLoad m) t = .next v ∧
      v.pc = s.pc ∧ v.npc = s.npc ∧ v.msr = s.msr ∧ v.srr0 = s.srr0 ∧ v.srr1 = s.srr1 ∧
      v.decrementer = s.decrementer ∧ v.timebase = s.timebase ∧ v.decFraction = s.decFraction ∧
      v.interruptPending = s.interruptPending ∧ v.esaShadow = s.esaShadow ∧ v.hid0 = s.hid0

/-- REG_READ of each of the twelve indices, by the host or a handler, in a fatal session too (R70,
R184). It rests on the spec's own decisions and resolutions D17 (the abort is the sticky flag `fatal`,
which closes all but three operations), D21 (the register indices, and which of them a handler may
write) and D29 (the widths of the latch and the shadow); log 22. -/
def Obligations.RegReadAnswersTheElement : Prop :=
  ∀ s : State, s.issuer ≠ .seq → s.hostWaits →
    exec (.regRead 0) s = .next { s with response := .done [s.pc] } ∧
    exec (.regRead 1) s = .next { s with response := .done [s.npc] } ∧
    exec (.regRead 2) s = .next { s with response := .done [s.msr] } ∧
    exec (.regRead 3) s = .next { s with response := .done [s.srr0] } ∧
    exec (.regRead 4) s = .next { s with response := .done [s.srr1] } ∧
    exec (.regRead 5) s = .next { s with response := .done [s.decrementer] } ∧
    exec (.regRead 6) s = .next { s with response := .done [s.timebase] } ∧
    exec (.regRead 7) s = .next { s with response := .done [s.decFraction] } ∧
    exec (.regRead 8) s = .next { s with response := .done [s.interruptPending.setWidth 32] } ∧
    exec (.regRead 9) s = .next { s with response := .done [s.esaShadow.setWidth 32] } ∧
    exec (.regRead 10) s = .next { s with response := .done [s.hid0] } ∧
    exec (.regRead 11) s = .next { s with response := .done [s.ibr] }

/-- REG_WRITE: each of the twelve indices for the host; the five that are open to it for a handler. Of
the narrow elements only the low bits are kept (R70, R170, R185). It rests on the spec's own decisions
and resolutions D21 (the register indices, and which of them a handler may write) and D29 (the widths
of the latch and the shadow); log 22. -/
def Obligations.RegWriteReplacesTheElement : Prop :=
  ∀ (s : State) (v : Word),
    (s.asHost →
      exec (.regWrite 0 v) s = .next { s with pc := v, response := .done [] } ∧
      exec (.regWrite 1 v) s = .next { s with npc := v, response := .done [] } ∧
      exec (.regWrite 2 v) s = .next { s with msr := v, response := .done [] } ∧
      exec (.regWrite 3 v) s = .next { s with srr0 := v, response := .done [] } ∧
      exec (.regWrite 4 v) s = .next { s with srr1 := v, response := .done [] } ∧
      exec (.regWrite 5 v) s = .next { s with decrementer := v, response := .done [] } ∧
      exec (.regWrite 6 v) s = .next { s with timebase := v, response := .done [] } ∧
      exec (.regWrite 7 v) s = .next { s with decFraction := v, response := .done [] } ∧
      exec (.regWrite 8 v) s =
        .next { s with interruptPending := v.setWidth 3, response := .done [] } ∧
      exec (.regWrite 9 v) s = .next { s with esaShadow := v.setWidth 4, response := .done [] } ∧
      exec (.regWrite 10 v) s = .next { s with hid0 := v, response := .done [] } ∧
      exec (.regWrite 11 v) s = .next { s with ibr := v, response := .done [] }) ∧
    (s.asHandler →
      exec (.regWrite 1 v) s = .next { s with npc := v, response := .done [] } ∧
      exec (.regWrite 3 v) s = .next { s with srr0 := v, response := .done [] } ∧
      exec (.regWrite 4 v) s = .next { s with srr1 := v, response := .done [] } ∧
      exec (.regWrite 10 v) s = .next { s with hid0 := v, response := .done [] } ∧
      exec (.regWrite 11 v) s = .next { s with ibr := v, response := .done [] })

/-! ### The MSR register and the privilege shadow -/

/-- MSR_GET answers all 32 bits and changes nothing else, in a fatal session too; MSR_SET replaces the
whole word, masks nothing and dispatches nothing (R80, R81). It rests on the spec's own decision D17
(the abort is the sticky flag `fatal`, which closes all but three operations; R30), by which MSR_GET
is answered in a fatal session and MSR_SET is not; log 22. -/
def Obligations.MsrIsReadAndReplacedWhole : Prop :=
  ∀ (s : State) (v : Word), s.hostWaits →
    exec .msrGet s = .next { s with response := .done [s.msr] } ∧
    (s.fatal = false → exec (.msrSet v) s = .next { s with msr := v, response := .done [] })

/-- ENTER_SUPERVISOR on the 602, bit by bit, in any layout (R91, R64). That the other 28 bits keep
their values is the spec's decision D19 in its conflict C2 (R94; log 22). -/
def Obligations.EnterSupervisorBitByBit : Prop :=
  ∀ s : State, s.asHandler → s.params.variant = .v602 → s.params.layout.wf →
    ∃ t, exec .enterSupervisor s = .next t ∧
      t = { s with msr := t.msr, esaShadow := t.esaShadow, response := .done [] } ∧
      t.esaShadow.getLsbD 3 = s.msrF .pr ∧ t.esaShadow.getLsbD 2 = s.msrF .ap ∧
      t.esaShadow.getLsbD 1 = s.msrF .sa ∧ t.esaShadow.getLsbD 0 = s.msrF .ee ∧
      t.msrF .ee = false ∧ t.msrF .pr = false ∧ t.msrF .ap = false ∧ t.msrF .sa = true ∧
      ∀ k : Fin 32, (∀ f ∈ [MsrField.ee, .pr, .ap, .sa], k ≠ s.params.layout.index f) →
        t.msr.getLsbD k.val = s.msr.getLsbD k.val

/-- RESTORE_FROM_SUPERVISOR on the 602, bit by bit, in any layout; the shadow is kept (R92). It rests
on the spec's own resolution of a conflict C1 (SA comes back on a restore); log 22. -/
def Obligations.RestoreFromSupervisorBitByBit : Prop :=
  ∀ s : State, s.asHandler → s.params.variant = .v602 → s.params.layout.wf →
    ∃ t, exec .restoreFromSupervisor s = .next t ∧
      t = { s with msr := t.msr, response := .done [] } ∧
      t.msrF .ee = s.esaShadow.getLsbD 0 ∧ t.msrF .sa = s.esaShadow.getLsbD 1 ∧
      t.msrF .ap = s.esaShadow.getLsbD 2 ∧ t.msrF .pr = s.esaShadow.getLsbD 3 ∧
      ∀ k : Fin 32, (∀ f ∈ [MsrField.ee, .pr, .ap, .sa], k ≠ s.params.layout.index f) →
        t.msr.getLsbD k.val = s.msr.getLsbD k.val

/-- ENTER_SUPERVISOR followed at once by RESTORE_FROM_SUPERVISOR gives back the four fields (R93), and
the whole `msr`. That the WHOLE word comes back follows only under the spec's decision D19 in its
conflict C2, by which the other 28 bits are kept (R94; log 22). It rests on the spec's own resolution
of a conflict C1 (SA comes back on a restore); log 22. -/
def Obligations.SupervisorRoundTrip : Prop :=
  ∀ s : State, s.asHandler → s.params.variant = .v602 → s.params.layout.wf →
    ∃ t u, exec .enterSupervisor s = .next t ∧ exec .restoreFromSupervisor t = .next u ∧
      u = { s with esaShadow := t.esaShadow, response := .done [] }

/-! ### Exception entry -/

/-- The numeric codes and the classes of the kinds, and which codes are unknown on which variant
(R58). It rests on the spec's own decisions and resolutions D4 (the codes of the kinds) and D34 (DSI
and ISI are unknown kinds on the 602); log 22. -/
def Obligations.KindCodesOfBothVariants : Prop :=
  ∀ (v : Variant) (k : Byte),
    (∀ K, kindAsync K = decide (K = .irq ∨ K = .decrementer ∨ K = .smi)) ∧
    kindOfCode v k =
      if k = 1 then some .irq
      else if k = 2 then some .decrementer
      else if k = 3 then some .trap
      else if k = 4 then some .syscall
      else if k = 5 then some .smi
      else if k = 6 ∧ v = .v603 then some .dsi
      else if k = 7 ∧ v = .v603 then some .isi
      else none

/-- The three asynchronous dispatches: the entry with `MSR.EE = 1`, and the gate, under which nothing
changes, with `MSR.EE = 0` (R106, R107, R110, R114). It rests on the spec's own decisions and
resolutions D5 (the vector goes to `npc`, as C11 resolves), D7 (only TRAP has a marker in `srr1`) and
C4 (base and offset are ORed, not added); log 22. -/
def Obligations.AsynchronousDispatches : Prop :=
  ∀ s : State, s.asSeq → (s.msrF .ee = true →
    exec .excIrq s = .next { s with
      srr0 := s.npc, srr1 := s.msr &&& 0x0000ff73, msr := msrAfterEntry s.params.layout s.msr,
      npc := s.vectorBase s.msr ||| 0x00000500,
      interruptPending := s.interruptPending &&& ~~~0x1#3, response := .done [] } ∧
    exec .excDecrementer s = .next { s with
      srr0 := s.npc, srr1 := s.msr &&& 0x0000ff73, msr := msrAfterEntry s.params.layout s.msr,
      npc := s.vectorBase s.msr ||| 0x00000900,
      interruptPending := s.interruptPending &&& ~~~0x2#3, response := .done [] } ∧
    exec .excSmi s = .next { s with
      srr0 := s.npc, srr1 := s.msr &&& 0x0000ff73, msr := msrAfterEntry s.params.layout s.msr,
      npc := s.vectorBase s.msr ||| 0x00001400,
      interruptPending := s.interruptPending &&& ~~~0x4#3, response := .done [] }) ∧
    (s.msrF .ee = false →
      exec .excIrq s = .next { s with response := .done [] } ∧
      exec .excDecrementer s = .next { s with response := .done [] } ∧
      exec .excSmi s = .next { s with response := .done [] })

/-- TRAP and SYSCALL, on both variants, whatever `MSR.EE` is (R108, R109). That SYSCALL saves `pc` in
`srr0` is the spec's own decision D6, where the source does not say (R102; log 22), and that it has no
marker in `srr1` is D7 (R103; log 22). It rests on the spec's own decisions and resolutions D5 (the
vector goes to `npc`, as C11 resolves) and C4 (base and offset are ORed, not added); log 22. -/
def Obligations.TrapAndSyscallEntries : Prop :=
  ∀ s : State, s.asSeq →
    exec .excTrap s = .next { s with
      srr0 := s.pc, srr1 := (s.msr &&& 0x0000ff73) ||| 0x00020000,
      msr := msrAfterEntry s.params.layout s.msr,
      npc := s.vectorBase s.msr ||| 0x00000700, response := .done [] } ∧
    exec .excSyscall s = .next { s with
      srr0 := s.pc, srr1 := s.msr &&& 0x0000ff73, msr := msrAfterEntry s.params.layout s.msr,
      npc := s.vectorBase s.msr ||| 0x00000c00, response := .done [] }

/-- DSI and ISI on the 603, for both values of `DSI_ISI_CLEARS_SMI` (R111, R112, R116). That they save
`pc` in `srr0` is the spec's own decision D6, where the source does not say (R102; log 22), and that
they have no marker in `srr1` is D7 (R103; log 22). It rests on the spec's own decisions and
resolutions D5 (the vector goes to `npc`, as C11 resolves), D8 (whether DSI and ISI clear the SMI bit
is a parameter, as C5 resolves) and C4 (base and offset are ORed, not added); log 22. -/
def Obligations.StorageEntriesOn603 : Prop :=
  ∀ s : State, s.asSeq → s.params.variant = .v603 →
    exec .excDsi s = .next { s with
      srr0 := s.pc, srr1 := s.msr &&& 0x0000ff73, msr := msrAfterEntry s.params.layout s.msr,
      npc := s.vectorBase s.msr ||| 0x00000300,
      interruptPending :=
        if s.params.dsiIsiClearsSmi then s.interruptPending &&& ~~~0x4#3 else s.interruptPending,
      response := .done [] } ∧
    exec .excIsi s = .next { s with
      srr0 := s.pc, srr1 := s.msr &&& 0x0000ff73, msr := msrAfterEntry s.params.layout s.msr,
      npc := s.vectorBase s.msr ||| 0x00000400,
      interruptPending :=
        if s.params.dsiIsiClearsSmi then s.interruptPending &&& ~~~0x4#3 else s.interruptPending,
      response := .done [] }

/-- DSI and ISI on the 602 are unknown kinds: the fatal abort, whoever asks, with nothing else written
(R74, R113). That no answer is given then, is the model's reading (log 8). It rests on the spec's own
decisions and resolutions D17 (the abort is the sticky flag `fatal`, which closes all but three
operations) and D34 (DSI and ISI are unknown kinds on the 602); log 22. That R74, which names no
issuer, is meant for everyone (log 19), and that the port waits while an invocation runs, and a host
that asks `exec` for an unknown kind then aborts it (log 10) are the model's choice or reading. -/
def Obligations.StorageKindsAreFatalOn602 : Prop :=
  ∀ s : State, s.fatal = false → s.params.variant = .v602 →
    exec .excDsi s = .next { s with
      fatal := true, fatalKind := 6, executing := false, response := .pending } ∧
    exec .excIsi s = .next { s with
      fatal := true, fatalKind := 7, executing := false, response := .pending }

/-- `msr` after an entry that is not gated off, bit by bit, in any layout and for every kind: the
eleven fields are 0, LE is the old ILE, every other bit is kept (R63, R105, R118). -/
def Obligations.EntryStatusBitByBit : Prop :=
  ∀ (s : State) (K : ExcKind), s.params.layout.wf → s.gatedOff K = false →
    (∀ f ∈ [MsrField.pow, .ee, .pr, .fp, .fe0, .se, .be, .fe1, .ir, .dr, .ri],
      (s.dispatch K).msrF f = false) ∧
    (s.dispatch K).msrF .le = s.msrF .ile ∧
    ∀ k : Fin 32,
      (∀ f ∈ [MsrField.pow, .ee, .pr, .fp, .fe0, .se, .be, .fe1, .ir, .dr, .ri, .le],
        k ≠ s.params.layout.index f) →
      (s.dispatch K).msr.getLsbD k.val = s.msr.getLsbD k.val

/-- `srr1` after an entry, bit by bit, in every layout (R62). That only TRAP has a marker is the spec's
own decision D7 (R103; log 22). -/
def Obligations.SavedStatusBitByBit : Prop :=
  ∀ (s : State) (K : ExcKind) (k : Nat), s.gatedOff K = false → k < 32 →
    (s.dispatch K).srr1 = (s.msr &&& 0x0000ff73) ||| (if K = .trap then 0x00020000 else 0) ∧
    (18 ≤ k ∨ k = 16 ∨ k = 7 ∨ k = 3 ∨ k = 2 → (s.dispatch K).srr1.getLsbD k = false) ∧
    (k = 17 → (s.dispatch K).srr1.getLsbD k = decide (K = .trap)) ∧
    (¬ (16 ≤ k ∨ k = 7 ∨ k = 3 ∨ k = 2) → (s.dispatch K).srr1.getLsbD k = s.msr.getLsbD k)

/-- The address an entry sends control to: the OR of the base chosen by IP and the variant with the
kind's offset (R59, R60, R104, R117). It rests on the spec's own decisions and resolutions D5 (the
vector goes to `npc`, as C11 resolves) and C4 (base and offset are ORed, not added); log 22. -/
def Obligations.VectorOfEveryKind : Prop :=
  ∀ (s : State) (K : ExcKind), s.gatedOff K = false →
    (s.dispatch K).npc =
      (if s.msrF .ip then 0xfff00000
        else if s.params.variant = .v602 then s.ibr else 0x00000000) |||
      (match K with
        | .irq => 0x500
        | .decrementer => 0x900
        | .trap => 0x700
        | .syscall => 0xc00
        | .smi => 0x1400
        | .dsi => 0x300
        | .isi => 0x400)

/-- Where an entry goes, against the sum of base and offset (R61, R246): on the two fixed bases the OR
is the sum; with an `ibr` that shares a bit with the offset it is not, and two kinds can then go to
one address. It rests on the spec's own decisions and resolutions D5 (the vector goes to `npc`, as C11
resolves) and C4 (base and offset are ORed, not added); log 22. -/
def Obligations.VectorOrAgainstSum : Prop :=
  ∀ (s : State) (K : ExcKind), s.gatedOff K = false →
    let off : Word := match K with
      | .irq => 0x500
      | .decrementer => 0x900
      | .trap => 0x700
      | .syscall => 0xc00
      | .smi => 0x1400
      | .dsi => 0x300
      | .isi => 0x400
    (s.msrF .ip = true → (s.dispatch K).npc = 0xfff00000 + off) ∧
    (s.msrF .ip = false → s.params.variant = .v603 → (s.dispatch K).npc = 0x00000000 + off) ∧
    (s.msrF .ip = false → s.params.variant = .v602 → s.ibr &&& off = 0 →
      (s.dispatch K).npc = s.ibr + off) ∧
    (s.msrF .ip = false → s.params.variant = .v602 → s.ibr &&& off ≠ 0 →
      (s.dispatch K).npc = s.ibr ||| off ∧ (s.dispatch K).npc ≠ s.ibr + off) ∧
    (s.msrF .ip = false → s.params.variant = .v602 → s.ibr = 0x00000200 → K = .irq ∨ K = .trap →
      (s.dispatch K).npc = 0x00000700)

/-- After an entry EE is 0 and every asynchronous dispatch is gated off; a synchronous one is taken and
overwrites `srr0` and `srr1` (R119), with the values of R102 and R103. That `srr0` is `pc` for SYSCALL,
DSI and ISI is the spec's own decision D6, and that only TRAP has a marker in `srr1` is D7 (log 22). -/
def Obligations.EntryMasksAsynchronousKinds : Prop :=
  ∀ (s : State) (K J : ExcKind), s.params.layout.wf → s.gatedOff K = false →
    (s.dispatch K).msrF .ee = false ∧
    (kindAsync J = true → (s.dispatch K).dispatch J = s.dispatch K) ∧
    (kindAsync J = false →
      ((s.dispatch K).dispatch J).srr0 = s.pc ∧
      ((s.dispatch K).dispatch J).srr1 =
        ((s.dispatch K).msr &&& 0x0000ff73) ||| (if J = .trap then 0x00020000 else 0))

/-- Which bits of `interrupt_pending` an entry clears, bit by bit (R115, R116). It rests on the spec's
own decision D8 (whether DSI and ISI clear the SMI bit is a parameter, as C5 resolves); log 22. -/
def Obligations.EntryClearsItsOwnPendingBit : Prop :=
  ∀ (s : State) (K : ExcKind) (k : Fin 3), s.gatedOff K = false →
    (s.dispatch K).interruptPending.getLsbD k.val =
      (s.interruptPending.getLsbD k.val &&
        !decide ((K = .irq ∧ k = 0) ∨ (K = .decrementer ∧ k = 1) ∨ (K = .smi ∧ k = 2) ∨
          ((K = .dsi ∨ K = .isi) ∧ k = 2 ∧ s.params.dsiIsiClearsSmi = true)))

/-! ### The interrupt controller -/

/-- The two line operations, activating and not (R121, R122, R127, R128). The list of notifications
sent is the model's (log 17). It rests on the spec's own decision D23 (every activating IRQ call
notifies); log 22. -/
def Obligations.LineOperations : Prop :=
  ∀ s : State, s.issuer ≠ .seq → s.hostWaits → s.fatal = false →
    exec (.setIrqLine true) s = .next { s with
      interruptPending := s.interruptPending ||| 0x1#3,
      notices := if s.params.callbackInstalled then
          s.notices ++ [⟨s.params.device, s.params.irqNumber⟩] else s.notices,
      response := .done [] } ∧
    exec (.setIrqLine false) s = .next { s with response := .done [] } ∧
    exec (.setSmiLine true) s = .next { s with
      interruptPending := s.interruptPending ||| 0x4#3, response := .done [] } ∧
    exec (.setSmiLine false) s = .next { s with response := .done [] }

/-- CHECK is the dispatch of the pending kind of highest priority, and nothing without one or with
`MSR.EE = 0` (R123, R124, R126). -/
def Obligations.CheckDispatchesByPriority : Prop :=
  ∀ s : State, s.asSeq →
    exec .check s =
      if s.msrF .ee = false then .next { s with response := .done [] }
      else if s.interruptPending.getLsbD 0 then exec .excIrq s
      else if s.interruptPending.getLsbD 1 then exec .excDecrementer s
      else if s.interruptPending.getLsbD 2 then exec .excSmi s
      else .next { s with response := .done [] }

/-- The table of CHECK: the pending bits and `MSR.EE` after it, for all sixteen cases (R130). -/
def Obligations.CheckTable : Prop :=
  ∀ s : State, s.asSeq → s.params.layout.wf →
    ∃ t, exec .check s = .next t ∧
      t.interruptPending =
        (if s.msrF .ee = false then s.interruptPending
          else if s.interruptPending = 0b011#3 then 0b010#3
          else if s.interruptPending = 0b101#3 then 0b100#3
          else if s.interruptPending = 0b110#3 then 0b100#3
          else if s.interruptPending = 0b111#3 then 0b110#3
          else 0b000#3) ∧
      t.msrF .ee = (s.msrF .ee && decide (s.interruptPending = 0b000#3))

/-- At most one: a second CHECK straight after the first does nothing (R125). -/
def Obligations.SecondCheckDoesNothing : Prop :=
  ∀ s t : State, s.asSeq → s.params.layout.wf → exec .check s = .next t → exec .check t = .next t

/-! ### The timing unit -/

/-- TU_ARM, with the default formula and with any other one (R137, R138, R139). That an operand above
BUDGET_MAX, outside the range of R137, is served like any other is the model's reading (log 18). It
rests on the spec's own decisions and resolutions D9 (the trigger formula is a parameter, and counts
one for one as C12 resolves) and D11 (the range of the budget and the cost of one unit for each
retired instruction, as C15 resolves); log 22. That a trigger formula other than the default is an
opaque function (log 16) is the model's choice or reading. -/
def Obligations.ArmPredictsTheUnderflow : Prop :=
  ∀ (s : State) (n : Word), s.asSeq →
    exec (.tuArm n) s = .next { s with
      icountStart := n,
      triggerOffset :=
        if s.decrementer.toNat < n.toNat then
          (match s.params.triggerRule with
            | .entryDecrementer => s.decrementer
            | .other j => Config.otherTriggerOffset j s.decrementer n)
        else 0x7fffffff,
      response := .done [] }

/-- TU_TICK sets the DECREMENTER bit exactly when the running counter equals the trigger (R140). It
rests on the spec's own decision D30 (a DECREMENTER bit is consumed by the CHECK of the iteration that
sets it, as C9 resolves); log 22. -/
def Obligations.TickSetsTheBitAtTheTrigger : Prop :=
  ∀ s : State, s.asSeq →
    exec .tuTick s = .next { s with
      interruptPending :=
        if s.icountStart - s.budgetRemaining = s.triggerOffset then s.interruptPending ||| 0x2#3
        else s.interruptPending,
      response := .done [] }

/-- TU_COMMIT: the timebase loses its remainder on both variants; the 602 loses the decrementer's too
and does not touch `dec_fraction`, the 603 carries it (R141, R142, R143). It rests on the spec's own
decisions and resolutions D10 (on the 603 the old fraction is added before dividing, as C6 resolves),
D12 (the bus multiplier is an integer of at least 1), D20 (counters and `pc + 4` wrap) and C14
(neither variant carries a remainder of the timebase); log 22. -/
def Obligations.CommitOnBothVariants : Prop :=
  ∀ s : State, s.asSeq →
    (s.params.variant = .v602 →
      exec .tuCommit s = .next { s with
        timebase :=
          s.timebase + BitVec.ofNat 32 ((s.icountStart - s.budgetRemaining).toNat / 4),
        decrementer := s.decrementer -
          BitVec.ofNat 32 ((s.icountStart - s.budgetRemaining).toNat / (s.params.busMult * 2)),
        response := .done [] }) ∧
    (s.params.variant = .v603 →
      exec .tuCommit s = .next { s with
        timebase :=
          s.timebase + BitVec.ofNat 32 ((s.icountStart - s.budgetRemaining).toNat / 4),
        decrementer := s.decrementer - BitVec.ofNat 32
          (((s.icountStart - s.budgetRemaining).toNat + s.decFraction.toNat) /
            (s.params.busMult * 2)),
        decFraction := BitVec.ofNat 32
          (((s.icountStart - s.budgetRemaining).toNat + s.decFraction.toNat) %
            (s.params.busMult * 2)),
        response := .done [] })

/-- On the 603 no tick is lost: two exits that consume `a` and `b` take the decrementer down as far as
one that consumes `a + b` would, and leave the same fraction, below the divisor (R143). It rests on
the spec's own decisions and resolutions D10 (on the 603 the old fraction is added before dividing, as
C6 resolves), D12 (the bus multiplier is an integer of at least 1) and D20 (counters and `pc + 4`
wrap); log 22. -/
def Obligations.CarriedFractionLosesNoTick : Prop :=
  ∀ (s : State) (a b : Word), s.params.wf → s.params.variant = .v603 →
    let t := State.commit { s with icountStart := a, budgetRemaining := 0 }
    let u := State.commit { t with icountStart := b, budgetRemaining := 0 }
    u.decrementer = s.decrementer - BitVec.ofNat 32
      ((a.toNat + b.toNat + s.decFraction.toNat) / (s.params.busMult * 2)) ∧
    u.decFraction.toNat =
      (a.toNat + b.toNat + s.decFraction.toNat) % (s.params.busMult * 2) ∧
    t.decFraction.toNat < s.params.busMult * 2

/-! ### The execution loop -/

/-- What one iteration keeps, and how it advances: `pc` takes `npc`, one fetch is made at that address
with `translated = MSR.IR`, at most one handler call, and at most one unit of budget is used (R41,
R158, R159, R175, and the spec's decisions in R162 and R164; log 22). It rests on the spec's own
decisions and resolutions D20 (counters and `pc + 4` wrap) and D36 (IR acts at the next fetch); log
22. That an iteration is a step of its own (log 11), and that an operation that is none of a handler's
effects is skipped and the answers of effects stay away from the port (log 15) are the model's choice
or reading. -/
def Obligations.IterationFrame : Prop :=
  ∀ s t : State, s.executing = true → s.budgetRemaining ≠ 0 → step s = .next t →
    t.pc = s.npc ∧ t.lastFetch = some ⟨s.npc, s.msrF .ir⟩ ∧ t.fetchCount = s.fetchCount + 1 ∧
    (t.handlerCount = s.handlerCount ∨ t.handlerCount = s.handlerCount + 1) ∧
    (t.budgetRemaining = s.budgetRemaining ∨ t.budgetRemaining = s.budgetRemaining - 1) ∧
    t.decrementer = s.decrementer ∧ t.timebase = s.timebase ∧ t.decFraction = s.decFraction ∧
    t.icountStart = s.icountStart ∧ t.triggerOffset = s.triggerOffset ∧
    t.params = s.params ∧ t.port = s.port ∧ t.issuer = s.issuer

/-- What the effects of a handler leave alone, whatever the list: everything that is closed to it
(R34, R170). The latch only gains bits, and never the DECREMENTER bit. It rests on the spec's own
decisions and resolutions D21 (the register indices, and which of them a handler may write) and D26
(what effects a handler has); log 22. That an operation that is none of a handler's effects is skipped
and the answers of effects stay away from the port (log 15) is the model's choice or reading. -/
def Obligations.HandlerEffectsLeaveClosedStateAlone : Prop :=
  ∀ (es : List Instr) (s : State),
    let t := s.applyEffects es
    t.pc = s.pc ∧ t.decrementer = s.decrementer ∧ t.timebase = s.timebase ∧
    t.decFraction = s.decFraction ∧ t.budgetRemaining = s.budgetRemaining ∧
    t.icountStart = s.icountStart ∧ t.triggerOffset = s.triggerOffset ∧ t.fatal = s.fatal ∧
    t.fatalKind = s.fatalKind ∧ t.executing = s.executing ∧ t.response = s.response ∧
    t.issuer = s.issuer ∧ t.params = s.params ∧ t.port = s.port ∧
    t.interruptPending.getLsbD 1 = s.interruptPending.getLsbD 1 ∧
    (∀ k, s.interruptPending.getLsbD k = true → t.interruptPending.getLsbD k = true) ∧
    (s.params.variant = .v603 → t.esaShadow = s.esaShadow)

/-- What the effects of a handler do, one after the other, and when (R170, R131, R176; the spec's
decisions D24 and D26, log 22). An operation of a handler is what `exec` gives for it, but for the
answer and the issuer, which stay the port's; each effect of R170's table does what the table says; a
read writes nothing; a refused one changes nothing and the rest is still applied. They are applied in
the iteration of their instruction, before its compare and its CHECK (R158, R161, R162, R140, R165);
that this iteration is a step of its own is the model's choice (log 11; R171). R170 speaks of refusal
for ENTER_SUPERVISOR and RESTORE_FROM_SUPERVISOR on the 603; that a REG_WRITE of a closed register, an
operand out of range, and an operation that is none of a handler's are skipped, that a read may stand
in the list, and that the answers of effects stay away from the port, are the model's reading (log
15). The answers stand ready on the tapes (log 12, log 13); the list of notifications is the model's
(log 17). It rests on the spec's own decisions and resolutions D20 (counters and `pc + 4` wrap), D11
(the range of the budget and the cost of one unit for each retired instruction, as C15 resolves), D23
(every activating IRQ call notifies) and D30 (a DECREMENTER bit is consumed by the CHECK of the
iteration that sets it, as C9 resolves); log 22. -/
def Obligations.RefusedEffectsAreSkipped : Prop :=
  ∀ (s : State) (e : Instr) (es : List Instr),
    (Issuer.handler ∈ issuersOf e → ∃ t, exec e { s with issuer := .handler } = .next t ∧
      s.applyEffects (e :: es) =
        State.applyEffects { t with issuer := s.issuer, response := s.response } es) ∧
    (s.fatal = false → ∀ v : Word,
      s.applyEffects (.regWrite 1 v :: es) = State.applyEffects { s with npc := v } es ∧
      s.applyEffects (.msrSet v :: es) = State.applyEffects { s with msr := v } es ∧
      s.applyEffects (.regWrite 3 v :: es) = State.applyEffects { s with srr0 := v } es ∧
      s.applyEffects (.regWrite 4 v :: es) = State.applyEffects { s with srr1 := v } es ∧
      s.applyEffects (.regWrite 11 v :: es) = State.applyEffects { s with ibr := v } es ∧
      s.applyEffects (.regWrite 10 v :: es) = State.applyEffects { s with hid0 := v } es ∧
      s.applyEffects (.setIrqLine true :: es) = State.applyEffects { s with
        interruptPending := s.interruptPending ||| 0x1#3,
        notices := if s.params.callbackInstalled then
            s.notices ++ [⟨s.params.device, s.params.irqNumber⟩] else s.notices } es ∧
      s.applyEffects (.setIrqLine false :: es) = s.applyEffects es ∧
      s.applyEffects (.setSmiLine true :: es) =
        State.applyEffects { s with interruptPending := s.interruptPending ||| 0x4#3 } es ∧
      s.applyEffects (.setSmiLine false :: es) = s.applyEffects es) ∧
    (s.fatal = false → s.params.variant = .v602 →
      (∃ t, exec .enterSupervisor { s with issuer := .handler } = .next t ∧
        t.response = .done [] ∧
        s.applyEffects (.enterSupervisor :: es) =
          State.applyEffects { s with msr := t.msr, esaShadow := t.esaShadow } es) ∧
      (∃ t, exec .restoreFromSupervisor { s with issuer := .handler } = .next t ∧
        t.response = .done [] ∧
        s.applyEffects (.restoreFromSupervisor :: es) =
          State.applyEffects { s with msr := t.msr } es)) ∧
    (e = .msrGet ∨ (∃ k, e = .regRead k) → s.applyEffects (e :: es) = s.applyEffects es) ∧
    ((e = .enterSupervisor ∨ e = .restoreFromSupervisor) ∧ s.params.variant = .v603 ∨
      (∃ k v, e = .regWrite k v ∧ k ∉ [1#8, 3#8, 4#8, 10#8, 11#8]) ∨
      e.wf = false ∨ Issuer.handler ∉ issuersOf e →
      s.applyEffects (e :: es) = s.applyEffects es) ∧
    ∀ (w : Word) (fs : List FetchAnswer) (hs : List HandlerAnswer),
      s.executing = true → s.budgetRemaining ≠ 0 → s.fetchTape = .word w :: fs →
      s.handlerTape = .resume es :: hs →
      let u := State.applyEffects { s with
        pc := s.npc, npc := s.npc + 4,
        lastFetch := some ⟨s.npc, s.msrF .ir⟩, fetchCount := s.fetchCount + 1, fetchTape := fs,
        lastDispatch := some ⟨tableIndexOf w, w⟩, handlerCount := s.handlerCount + 1,
        handlerTape := hs } es
      step s = .next (State.checkPending { u with
        budgetRemaining := s.budgetRemaining - 1,
        interruptPending :=
          if s.icountStart - (s.budgetRemaining - 1) = s.triggerOffset then
            u.interruptPending ||| 0x2#3 else u.interruptPending })

/-- An iteration whose handler answers without effects, which is what a benign no-op is: the
instruction retires, costs one unit, the trigger is compared, and CHECK is made on the state that
leaves (R161, R162, R165, R173). The answers stand ready on the tapes (log 12, log 13). It rests on
the spec's own decisions and resolutions D11 (the range of the budget and the cost of one unit for
each retired instruction, as C15 resolves), D20 (counters and `pc + 4` wrap) and D30 (a DECREMENTER
bit is consumed by the CHECK of the iteration that sets it, as C9 resolves); log 22. That an iteration
is a step of its own (log 11) is the model's choice or reading. -/
def Obligations.PlainInstructionRetires : Prop :=
  ∀ (s : State) (w : Word) (fs : List FetchAnswer) (hs : List HandlerAnswer),
    s.executing = true → s.budgetRemaining ≠ 0 → s.fetchTape = .word w :: fs →
    s.handlerTape = .resume [] :: hs →
    step s = .next (State.checkPending { s with
      pc := s.npc, npc := s.npc + 4, budgetRemaining := s.budgetRemaining - 1,
      interruptPending :=
        if s.icountStart - (s.budgetRemaining - 1) = s.triggerOffset then
          s.interruptPending ||| 0x2#3 else s.interruptPending,
      lastFetch := some ⟨s.npc, s.msrF .ir⟩, fetchCount := s.fetchCount + 1, fetchTape := fs,
      lastDispatch := some ⟨tableIndexOf w, w⟩, handlerCount := s.handlerCount + 1,
      handlerTape := hs })

/-- A synchronous kind raised by the handler or by the fetch aborts the instruction: `srr0` names it,
no budget is used, the trigger is not compared and no check is made (R163, R164, R169). That an
aborted instruction is free is the spec's own decision D13, and that only TRAP has a marker in `srr1`
is D7 (log 22); the answers stand ready on the tapes (log 12, log 13). It rests on the spec's own
decisions and resolutions D5 (the vector goes to `npc`, as C11 resolves), D14 (the fetch may raise)
and C4 (base and offset are ORed, not added); log 22. That an iteration is a step of its own (log 11)
is the model's choice or reading. -/
def Obligations.SynchronousRaiseAborts : Prop :=
  ∀ (s : State) (w : Word) (k : Byte) (K : ExcKind) (fs : List FetchAnswer)
    (hs : List HandlerAnswer),
    s.executing = true → s.budgetRemaining ≠ 0 → kindOfCode s.params.variant k = some K →
    kindAsync K = false →
    (s.fetchTape = .word w :: fs → s.handlerTape = .raise k :: hs →
      step s = .next { s with
        pc := s.npc, npc := s.vectorBase s.msr ||| kindOffset K, srr0 := s.npc,
        srr1 := (s.msr &&& 0x0000ff73) ||| (if K = .trap then 0x00020000 else 0),
        msr := msrAfterEntry s.params.layout s.msr,
        interruptPending := s.interruptPending &&& ~~~kindClears s.params K,
        lastFetch := some ⟨s.npc, s.msrF .ir⟩, fetchCount := s.fetchCount + 1, fetchTape := fs,
        lastDispatch := some ⟨tableIndexOf w, w⟩, handlerCount := s.handlerCount + 1,
        handlerTape := hs }) ∧
    (s.fetchTape = .raise k :: fs →
      step s = .next { s with
        pc := s.npc, npc := s.vectorBase s.msr ||| kindOffset K, srr0 := s.npc,
        srr1 := (s.msr &&& 0x0000ff73) ||| (if K = .trap then 0x00020000 else 0),
        msr := msrAfterEntry s.params.layout s.msr,
        interruptPending := s.interruptPending &&& ~~~kindClears s.params K,
        lastFetch := some ⟨s.npc, s.msrF .ir⟩, fetchCount := s.fetchCount + 1,
        fetchTape := fs })

/-- An asynchronous kind code that is raised, by the handler or by the fetch, meets the dispatcher's
gate (R163, R114, R169). With `MSR.EE = 0` it is gated off and the same instruction is executed again;
with `MSR.EE = 1` the entry is made, and it returns to the same instruction: `srr0 = npc = pc`. No
budget is used and no check is made. The answers stand ready on the tapes (log 12, log 13). It rests
on the spec's own decisions and resolutions D5 (the vector goes to `npc`, as C11 resolves), D7 (only
TRAP has a marker in `srr1`), D13 (an aborted instruction is free), D14 (the fetch may raise) and C4
(base and offset are ORed, not added); log 22. That an iteration is a step of its own (log 11) is the
model's choice or reading. -/
def Obligations.GatedRaiseRetriesTheInstruction : Prop :=
  ∀ (s : State) (w : Word) (k : Byte) (K : ExcKind) (fs : List FetchAnswer)
    (hs : List HandlerAnswer),
    s.executing = true → s.budgetRemaining ≠ 0 → kindOfCode s.params.variant k = some K →
    kindAsync K = true →
    let byHandler : State := { s with
      pc := s.npc,
      lastFetch := some ⟨s.npc, s.msrF .ir⟩, fetchCount := s.fetchCount + 1, fetchTape := fs,
      lastDispatch := some ⟨tableIndexOf w, w⟩, handlerCount := s.handlerCount + 1,
      handlerTape := hs }
    let byFetch : State := { s with
      pc := s.npc,
      lastFetch := some ⟨s.npc, s.msrF .ir⟩, fetchCount := s.fetchCount + 1, fetchTape := fs }
    (s.msrF .ee = false →
      (s.fetchTape = .word w :: fs → s.handlerTape = .raise k :: hs →
        step s = .next byHandler) ∧
      (s.fetchTape = .raise k :: fs → step s = .next byFetch)) ∧
    (s.msrF .ee = true →
      (s.fetchTape = .word w :: fs → s.handlerTape = .raise k :: hs →
        step s = .next { byHandler with
          npc := s.vectorBase s.msr ||| kindOffset K, srr0 := s.npc,
          srr1 := s.msr &&& 0x0000ff73, msr := msrAfterEntry s.params.layout s.msr,
          interruptPending := s.interruptPending &&& ~~~kindClears s.params K }) ∧
      (s.fetchTape = .raise k :: fs →
        step s = .next { byFetch with
          npc := s.vectorBase s.msr ||| kindOffset K, srr0 := s.npc,
          srr1 := s.msr &&& 0x0000ff73, msr := msrAfterEntry s.params.layout s.msr,
          interruptPending := s.interruptPending &&& ~~~kindClears s.params K }))

/-- An unknown kind code, raised by the handler or by the fetch, stops the invocation at once: `npc =
pc`, the counters and the budget as they stood, no exit step (R113, R169, R172). That no answer is
given is the model's reading (log 8); the answers stand ready on the tapes (log 12, log 13). It rests
on the spec's own decisions and resolutions D14 (the fetch may raise) and D17 (the abort is the sticky
flag `fatal`, which closes all but three operations); log 22. That an iteration is a step of its own
(log 11) is the model's choice or reading. -/
def Obligations.UnknownRaiseStopsTheInvocation : Prop :=
  ∀ (s : State) (w : Word) (k : Byte) (fs : List FetchAnswer) (hs : List HandlerAnswer),
    s.executing = true → s.budgetRemaining ≠ 0 → kindOfCode s.params.variant k = none →
    (s.fetchTape = .word w :: fs → s.handlerTape = .raise k :: hs →
      step s = .next { s with
        pc := s.npc, fatal := true, fatalKind := k, executing := false, response := .pending,
        lastFetch := some ⟨s.npc, s.msrF .ir⟩, fetchCount := s.fetchCount + 1, fetchTape := fs,
        lastDispatch := some ⟨tableIndexOf w, w⟩, handlerCount := s.handlerCount + 1,
        handlerTape := hs }) ∧
    (s.fetchTape = .raise k :: fs →
      step s = .next { s with
        pc := s.npc, fatal := true, fatalKind := k, executing := false, response := .pending,
        lastFetch := some ⟨s.npc, s.msrF .ir⟩, fetchCount := s.fetchCount + 1, fetchTape := fs })

/-- A DECREMENTER bit set by the trigger is taken at the same boundary, and `srr0` is the address of
the next instruction (R140, R165). The answers stand ready on the tapes (log 12, log 13). It rests on
the spec's own decisions and resolutions D5 (the vector goes to `npc`, as C11 resolves), D7 (only TRAP
has a marker in `srr1`), D11 (the range of the budget and the cost of one unit for each retired
instruction, as C15 resolves), D20 (counters and `pc + 4` wrap), D30 (a DECREMENTER bit is consumed by
the CHECK of the iteration that sets it, as C9 resolves) and C4 (base and offset are ORed, not added);
log 22. That an iteration is a step of its own (log 11) is the model's choice or reading. -/
def Obligations.DecrementerTakenAtItsBoundary : Prop :=
  ∀ (s : State) (w : Word) (fs : List FetchAnswer) (hs : List HandlerAnswer),
    s.executing = true → s.budgetRemaining ≠ 0 → s.fetchTape = .word w :: fs →
    s.handlerTape = .resume [] :: hs → s.msrF .ee = true →
    s.interruptPending.getLsbD 0 = false →
    s.icountStart - (s.budgetRemaining - 1) = s.triggerOffset →
    ∃ t, step s = .next t ∧ t.srr0 = s.npc + 4 ∧ t.srr1 = s.msr &&& 0x0000ff73 ∧
      t.npc = s.vectorBase s.msr ||| 0x00000900 ∧
      t.interruptPending = s.interruptPending &&& 0x4#3 ∧
      t.budgetRemaining = s.budgetRemaining - 1

/-- The return from an exception, as a handler makes it: the new `msr` and the target are in force at
the end of the instruction (R86, R205). With EE clear, or nothing latched once the trigger has been
compared, they stay so; with EE set and a request latched, the kind of highest priority is entered at
once and returns to the target. The answers stand ready on the tapes (log 12, log 13). It rests on the
spec's own decisions and resolutions D5 (the vector goes to `npc`, as C11 resolves), D7 (only TRAP has
a marker in `srr1`), D11 (the range of the budget and the cost of one unit for each retired
instruction, as C15 resolves), D25 (the return is the handler's, by two effects), D26 (what effects a
handler has), D30 (a DECREMENTER bit is consumed by the CHECK of the iteration that sets it, as C9
resolves) and C4 (base and offset are ORed, not added); log 22. That an iteration is a step of its own
(log 11), and that an operation that is none of a handler's effects is skipped and the answers of
effects stay away from the port (log 15) are the model's choice or reading. -/
def Obligations.ReturnFromException : Prop :=
  ∀ (s : State) (w v a : Word) (fs : List FetchAnswer) (hs : List HandlerAnswer),
    s.executing = true → s.fatal = false → s.budgetRemaining ≠ 0 → s.fetchTape = .word w :: fs →
    s.handlerTape = .resume [.msrSet v, .regWrite 1 a] :: hs →
    let latched : BitVec 3 :=
      if s.icountStart - (s.budgetRemaining - 1) = s.triggerOffset then
        s.interruptPending ||| 0x2#3 else s.interruptPending
    ∃ t, step s = .next t ∧ t.budgetRemaining = s.budgetRemaining - 1 ∧ t.pc = s.npc ∧
      (msrBit s.params.layout v .ee = false ∨ latched = 0 →
        t.msr = v ∧ t.npc = a ∧ t.srr0 = s.srr0 ∧ t.srr1 = s.srr1 ∧
        t.interruptPending = latched) ∧
      (msrBit s.params.layout v .ee = true → latched ≠ 0 →
        t.srr0 = a ∧ t.srr1 = v &&& 0x0000ff73 ∧ t.msr = msrAfterEntry s.params.layout v ∧
        t.npc = s.vectorBase v |||
          (if latched.getLsbD 0 then 0x00000500
            else if latched.getLsbD 1 then 0x00000900 else 0x00001400) ∧
        t.interruptPending = latched &&&
          (if latched.getLsbD 0 then 0b110#3
            else if latched.getLsbD 1 then 0b101#3 else 0b011#3))

/-- A latched request is lost in an invocation only by an entry of its own kind, and the SMI request
also by a DSI or ISI of a 603 with `DSI_ISI_CLEARS_SMI` (R127, R115, R116): if a step takes bit `j` of
the latch away, the state it leaves is an exception entry, whole, on a state `u` of that instruction
in which the bit was still set. It rests on the spec's own decisions and resolutions D5 (the vector
goes to `npc`, as C11 resolves), D7 (only TRAP has a marker in `srr1`), D8 (whether DSI and ISI clear
the SMI bit is a parameter, as C5 resolves) and C4 (base and offset are ORed, not added); log 22. That
an iteration is a step of its own (log 11), and that an operation that is none of a handler's effects
is skipped and the answers of effects stay away from the port (log 15) are the model's choice or
reading. -/
def Obligations.LatchedIrqIsOnlyLostByItsEntry : Prop :=
  ∀ (s t : State) (j : Fin 3), s.params.layout.wf → s.executing = true → step s = .next t →
    s.interruptPending.getLsbD j.val = true → t.interruptPending.getLsbD j.val = false →
    ∃ (u : State) (K : ExcKind),
      (K = .irq ∧ j = 0 ∨ K = .decrementer ∧ j = 1 ∨ K = .smi ∧ j = 2 ∨
        (K = .dsi ∨ K = .isi) ∧ j = 2 ∧ s.params.dsiIsiClearsSmi = true ∧
          s.params.variant = .v603) ∧
      u.params = s.params ∧ u.pc = s.npc ∧ u.fatal = s.fatal ∧ u.executing = true ∧
      (∀ i, s.interruptPending.getLsbD i = true → u.interruptPending.getLsbD i = true) ∧
      (kindAsync K = true → u.msrF .ee = true) ∧
      t = { u with
        srr0 := if kindAsync K then u.npc else u.pc, srr1 := u.msr &&& 0x0000ff73,
        msr := msrAfterEntry s.params.layout u.msr, npc := u.vectorBase u.msr ||| kindOffset K,
        interruptPending := u.interruptPending &&& ~~~(1#3 <<< j.val) } ∧
      t.msrF .ee = false ∧ t.npc = t.vectorBase t.msr ||| kindOffset K

/-- The exit: the counters are committed with all that was consumed, and the answer is that count
(R166, R167, R141 to R143). That the exit is a step of its own is the model's choice (log 11). It
rests on the spec's own decisions and resolutions D10 (on the 603 the old fraction is added before
dividing, as C6 resolves), D12 (the bus multiplier is an integer of at least 1), D20 (counters and `pc
+ 4` wrap), D28 (the answer of EXECUTE) and C14 (neither variant carries a remainder of the timebase);
log 22. -/
def Obligations.ExitCommitsAndAnswers : Prop :=
  ∀ s : State, s.executing = true → s.budgetRemaining = 0 →
    ∃ t, step s = .next t ∧ t.executing = false ∧ t.response = .done [s.icountStart] ∧
      t.timebase = s.timebase + BitVec.ofNat 32 (s.icountStart.toNat / 4) ∧
      (s.params.variant = .v602 →
        t.decrementer =
          s.decrementer - BitVec.ofNat 32 (s.icountStart.toNat / (s.params.busMult * 2)) ∧
        t.decFraction = s.decFraction) ∧
      (s.params.variant = .v603 →
        t.decrementer = s.decrementer - BitVec.ofNat 32
          ((s.icountStart.toNat + s.decFraction.toNat) / (s.params.busMult * 2)) ∧
        t.decFraction = BitVec.ofNat 32
          ((s.icountStart.toNat + s.decFraction.toNat) % (s.params.busMult * 2))) ∧
      t = { s with
        executing := false, response := t.response, timebase := t.timebase,
        decrementer := t.decrementer, decFraction := t.decFraction }

/-- A whole invocation without effects, raises and enabled interrupts: after as many iterations as the
budget and the exit, it has ended, every instruction was executed once in sequence, the answer is the
budget, and the DECREMENTER bit is set exactly if the trigger lay ahead within the budget. That an
iteration and the exit are steps, and that the answers stand ready on tapes, are the model's choice
(log 11, log 12, log 13). It rests on the spec's own decisions and resolutions D11 (the range of the
budget and the cost of one unit for each retired instruction, as C15 resolves), D20 (counters and `pc
+ 4` wrap), D28 (the answer of EXECUTE), D30 (a DECREMENTER bit is consumed by the CHECK of the
iteration that sets it, as C9 resolves) and C14 (neither variant carries a remainder of the timebase);
log 22. -/
def Obligations.QuietInvocationRunsToItsEnd : Prop :=
  ∀ (n : Nat) (s : State) (ws : List Word) (fs : List FetchAnswer) (hs : List HandlerAnswer),
    s.sound → s.executing = true → s.msrF .ee = false → s.budgetRemaining.toNat = n →
    ws.length = n → s.fetchTape = ws.map .word ++ fs →
    s.handlerTape = List.replicate n (.resume []) ++ hs →
    ∃ t, Host.Core.run Sys2Proof.core (n + 1) s = .next t ∧
      t.executing = false ∧ t.response = .done [s.icountStart] ∧
      t.npc = s.npc + BitVec.ofNat 32 (4 * n) ∧ t.msr = s.msr ∧ t.srr0 = s.srr0 ∧
      t.srr1 = s.srr1 ∧ t.fetchCount = s.fetchCount + n ∧ t.handlerCount = s.handlerCount + n ∧
      t.timebase = s.timebase + BitVec.ofNat 32 (s.icountStart.toNat / 4) ∧
      t.fetchTape = fs ∧ t.handlerTape = hs ∧
      t.interruptPending =
        if (s.icountStart - s.budgetRemaining).toNat < s.triggerOffset.toNat ∧
            s.triggerOffset.toNat ≤ s.icountStart.toNat then s.interruptPending ||| 0x2#3
        else s.interruptPending

/-! ### The fatal session -/

/-- A fatal session is frozen: a step that still answers a request changes nothing but the port, its
issuer and the answer, so `fatal` and the diagnostic stay for ever (R30; log 8). It rests on the
spec's own decision D17 (the abort is the sticky flag `fatal`, which closes all but three operations);
log 22. That requests wait in a list (log 6), and that a refusal is an answer of a next state and
never the outcome `refused` (log 7) are the model's choice or reading. -/
def Obligations.FatalSessionIsFrozen : Prop :=
  ∀ s t : State, s.fatal = true → s.executing = false → step s = .next t →
    t = { s with port := t.port, issuer := t.issuer, response := t.response }

/-- Only an unknown kind code makes a session fatal, and the step that does leaves every register but
`pc` as it was; `pc` holds the address of the instruction, if it was one that raised, and `npc` is
that address again (R113, R158, R163, R172). It rests on the spec's own decisions and resolutions D14
(the fetch may raise) and D17 (the abort is the sticky flag `fatal`, which closes all but three
operations); log 22. That the abort gives no answer (log 8), that an iteration is a step of its own
(log 11), and that an operation that is none of a handler's effects is skipped and the answers of
effects stay away from the port (log 15) are the model's choice or reading. -/
def Obligations.OnlyAnUnknownKindIsFatal : Prop :=
  ∀ s t : State, step s = .next t → s.fatal = false → t.fatal = true →
    kindOfCode s.params.variant t.fatalKind = none ∧ t.executing = false ∧
    t.pc = (if s.executing then s.npc else s.pc) ∧ t.npc = s.npc ∧
    t.msr = s.msr ∧ t.srr0 = s.srr0 ∧ t.srr1 = s.srr1 ∧
    t.interruptPending = s.interruptPending ∧ t.decrementer = s.decrementer ∧
    t.timebase = s.timebase ∧ t.decFraction = s.decFraction ∧ t.esaShadow = s.esaShadow ∧
    t.ibr = s.ibr ∧ t.hid0 = s.hid0 ∧ t.budgetRemaining = s.budgetRemaining ∧
    t.icountStart = s.icountStart ∧ t.triggerOffset = s.triggerOffset
end

