-- ==== Sys2Proof/Laws/Decode.lean ====
section
/-! SUPPORT. The command word and its fields determine each other (R67), and everything the operation
code map can answer (R69), said once. -/

namespace Sys2Proof

@[simp] theorem cwOp_assembleCw (op sub : Byte) (a : Bool) : cwOp (assembleCw op sub a) = op := by
  apply BitVec.eq_of_getLsbD_eq
  intro i hi
  simp only [cwOp, assembleCw, BitVec.getLsbD_extractLsb', BitVec.getLsbD_append]
  have h0 : ¬ (24 + i < 1) := by omega
  have h1 : ¬ (24 + i - 1 < 15) := by omega
  have h2 : ¬ (24 + i - 1 - 15 < 8) := by omega
  have h3 : 24 + i - 1 - 15 - 8 = i := by omega
  simp only [h0, h1, h2, h3, hi, decide_true, Bool.true_and, if_false]

@[simp] theorem cwSub_assembleCw (op sub : Byte) (a : Bool) : cwSub (assembleCw op sub a) = sub := by
  apply BitVec.eq_of_getLsbD_eq
  intro i hi
  simp only [cwSub, assembleCw, BitVec.getLsbD_extractLsb', BitVec.getLsbD_append]
  have h0 : ¬ (16 + i < 1) := by omega
  have h1 : ¬ (16 + i - 1 < 15) := by omega
  have h2 : 16 + i - 1 - 15 < 8 := by omega
  have h3 : 16 + i - 1 - 15 = i := by omega
  simp only [h0, h1, h3, hi, decide_true, Bool.true_and, if_false, if_true]

@[simp] theorem cwZ_assembleCw (op sub : Byte) (a : Bool) : cwZ (assembleCw op sub a) = 0 := by
  apply BitVec.eq_of_getLsbD_eq
  intro i hi
  simp only [cwZ, assembleCw, BitVec.getLsbD_extractLsb', BitVec.getLsbD_append]
  have h0 : ¬ (1 + i < 1) := by omega
  have h1 : 1 + i - 1 = i := by omega
  simp only [h0, h1, hi, decide_true, Bool.true_and, if_true, if_false, BitVec.ofNat_eq_ofNat,
    BitVec.getLsbD_zero]

@[simp] theorem cwA_assembleCw (op sub : Byte) (a : Bool) : cwA (assembleCw op sub a) = a := by
  simp only [cwA, assembleCw, BitVec.getLsbD_append]
  cases a <;> rfl

/-- A command word whose reserved bits are 0 is made of its fields. -/
theorem assembleCw_fields (cw : Word) (h : cwZ cw = 0) :
    assembleCw (cwOp cw) (cwSub cw) (cwA cw) = cw := by
  apply BitVec.eq_of_getLsbD_eq
  intro i hi
  have hz : ∀ j, j < 15 → cw.getLsbD (1 + j) = false := by
    intro j hj
    have := congrArg (fun b => b.getLsbD j) h
    simpa [cwZ, BitVec.getLsbD_extractLsb', hj] using this
  simp only [cwOp, cwSub, cwA, assembleCw, BitVec.getLsbD_extractLsb', BitVec.getLsbD_append]
  by_cases h0 : i < 1
  · have : i = 0 := by omega
    subst this
    simp
  · by_cases h1 : i - 1 < 15
    · have := hz (i - 1) h1
      have e : 1 + (i - 1) = i := by omega
      rw [e] at this
      simp [h0, h1, this]
    · by_cases h2 : i - 1 - 15 < 8
      · have e : 16 + (i - 1 - 15) = i := by omega
        simp only [h0, h1, h2, e, decide_true, Bool.true_and, if_false, if_true]
      · have h3 : i - 1 - 15 - 8 < 8 := by omega
        have e : 24 + (i - 1 - 15 - 8) = i := by omega
        simp only [h0, h1, h2, h3, e, decide_true, Bool.true_and, if_false]

theorem ite_eq_cases {α : Type} {c : Prop} [Decidable c] {a b d : α} (h : (if c then a else b) = d) :
    (c ∧ a = d) ∨ (¬ c ∧ b = d) := by
  by_cases hc : c
  · exact .inl ⟨hc, by simpa [hc] using h⟩
  · exact .inr ⟨hc, by simpa [hc] using h⟩

/-- Everything the operation code map can answer (R69). -/
theorem decodeOp_cases {op sub : Byte} {a : Bool} {wdata : List Word} {d : Decoded}
    (h : decodeOp op sub a wdata = d) :
    (op = 0x01 ∧ decodePlain sub a (.instr .reset) = d) ∨
    (op = 0x02 ∧ decodePlain sub a (decodeOne wdata .execute) = d) ∨
    (op = 0x03 ∧ decodePlain sub a (.instr .stateSave) = d) ∨
    (op = 0x04 ∧ decodePlain sub a (decodeImage wdata) = d) ∨
    (op = 0x10 ∧ decodePlain sub a (.instr .msrGet) = d) ∨
    (op = 0x11 ∧ decodePlain sub a (decodeOne wdata .msrSet) = d) ∨
    (op = 0x12 ∧ decodePlain sub a (.instr .enterSupervisor) = d) ∨
    (op = 0x13 ∧ decodePlain sub a (.instr .restoreFromSupervisor) = d) ∨
    (op = 0x14 ∧ decodeSub a (checkedOperand (.regRead sub)) = d) ∨
    (op = 0x15 ∧ decodeSub a (decodeOne wdata (.regWrite sub)) = d) ∨
    (op = 0x20 ∧ decodeSub a (decodeKind sub) = d) ∨
    (op = 0x30 ∧ decodeFlag sub (.setIrqLine a) = d) ∨
    (op = 0x31 ∧ decodeFlag sub (.setSmiLine a) = d) ∨
    (op = 0x32 ∧ decodePlain sub a (.instr .check) = d) ∨
    (op = 0x40 ∧ decodePlain sub a (decodeOne wdata .tuArm) = d) ∨
    (op = 0x41 ∧ decodePlain sub a (.instr .tuTick) = d) ∨
    (op = 0x42 ∧ decodePlain sub a (.instr .tuCommit) = d) ∨
    .rejected (.unknownOp op) = d := by
  unfold decodeOp at h
  iterate 17 (refine (ite_eq_cases h).imp id fun h' => ?_; replace h := h'.2; clear h')
  exact h

theorem decodePlain_cases {sub : Byte} {a : Bool} {d e : Decoded} (h : decodePlain sub a d = e) :
    (sub = 0 ∧ a = false ∧ d = e) ∨ ∃ r, e = .rejected r := by
  unfold decodePlain at h
  rcases ite_eq_cases h with ⟨_, h⟩ | ⟨h1, h⟩
  · exact .inr ⟨_, h.symm⟩
  · rcases ite_eq_cases h with ⟨_, h⟩ | ⟨h2, h⟩
    · exact .inr ⟨_, h.symm⟩
    · exact .inl ⟨not_not.mp h1, by simpa using h2, h⟩

theorem decodeSub_cases {a : Bool} {d e : Decoded} (h : decodeSub a d = e) :
    (a = false ∧ d = e) ∨ ∃ r, e = .rejected r := by
  cases a
  · exact .inl ⟨rfl, h⟩
  · exact .inr ⟨_, h.symm⟩

theorem decodeFlag_cases {sub : Byte} {i : Instr} {e : Decoded} (h : decodeFlag sub i = e) :
    (sub = 0 ∧ .instr i = e) ∨ ∃ r, e = .rejected r := by
  unfold decodeFlag at h
  rcases ite_eq_cases h with ⟨_, h⟩ | ⟨h1, h⟩
  · exact .inr ⟨_, h.symm⟩
  · exact .inl ⟨not_not.mp h1, h⟩

theorem checkedOperand_cases {i : Instr} {e : Decoded} (h : checkedOperand i = e) :
    (i.wf = true ∧ .instr i = e) ∨ ∃ r, e = .rejected r := by
  unfold checkedOperand at h
  cases hd : i.defect with
  | none => exact .inl ⟨by simp [Instr.wf, hd], by simpa [hd] using h⟩
  | some d => exact .inr ⟨_, by simpa [hd] using h.symm⟩

/-- An operation whose operands are looked at is answered, or rejected for an operand (R73 d, g). -/
theorem checkedOperand_answers (i : Instr) :
    checkedOperand i = .instr i ∨ ∃ d, checkedOperand i = .rejected (.badOperand d) := by
  unfold checkedOperand
  cases i.defect <;> simp

theorem decodeOne_answers (wdata : List Word) (f : Word → Instr) :
    (∃ w, decodeOne wdata f = .instr (f w)) ∨ decodeOne wdata f = .rejected .operandMissing ∨
      ∃ d, decodeOne wdata f = .rejected (.badOperand d) := by
  cases wdata with
  | nil => exact .inr (.inl rfl)
  | cons w rest => exact (checkedOperand_answers (f w)).imp (fun h => ⟨w, h⟩) .inr

theorem decodeOne_cases {wdata : List Word} {f : Word → Instr} {e : Decoded}
    (h : decodeOne wdata f = e) :
    (∃ w rest, wdata = w :: rest ∧ (f w).wf = true ∧ .instr (f w) = e) ∨ ∃ r, e = .rejected r := by
  cases wdata with
  | nil => exact .inr ⟨_, h.symm⟩
  | cons w rest =>
    rcases checkedOperand_cases h with ⟨h1, h2⟩ | h1
    · exact .inl ⟨w, rest, rfl, h1, h2⟩
    · exact .inr h1

theorem decodeImage_cases {wdata : List Word} {e : Decoded} (h : decodeImage wdata = e) :
    (∃ m rest, wdata = imageWords m ++ rest ∧ .instr (.stateLoad m) = e) ∨ ∃ r, e = .rejected r := by
  unfold decodeImage at h
  split at h
  · rename_i w0 w1 w2 w3 w4 w5 w6 w7 w8 w9 w10 rest
    exact .inl ⟨⟨w0, w1, w2, w3, w4, w5, w6, w7, w8, w9, w10⟩, rest, rfl, h⟩
  · exact .inr ⟨_, h.symm⟩

theorem decodeKind_cases {k : Byte} {e : Decoded} (h : decodeKind k = e) :
    (k = 1 ∧ .instr .excIrq = e) ∨ (k = 2 ∧ .instr .excDecrementer = e) ∨
    (k = 3 ∧ .instr .excTrap = e) ∨ (k = 4 ∧ .instr .excSyscall = e) ∨
    (k = 5 ∧ .instr .excSmi = e) ∨ (k = 6 ∧ .instr .excDsi = e) ∨ (k = 7 ∧ .instr .excIsi = e) ∨
    (k ∉ [1, 2, 3, 4, 5, 6, 7] ∧ .unknownKind k = e) := by
  unfold decodeKind at h
  by_cases hk : k ∈ [1#8, 2#8, 3#8, 4#8, 5#8, 6#8, 7#8]
  · simp only [List.mem_cons, List.not_mem_nil, or_false] at hk
    rcases hk with rfl | rfl | rfl | rfl | rfl | rfl | rfl <;> simp_all
  · have : k ≠ 1 ∧ k ≠ 2 ∧ k ≠ 3 ∧ k ≠ 4 ∧ k ≠ 5 ∧ k ≠ 6 ∧ k ≠ 7 := by
      simpa using hk
    simp_all

/-- A word with reserved bits set is rejected; any other one is the operation code map's (R73 b). -/
theorem decode_cons_cases {cw : Word} {wdata : List Word} {d : Decoded}
    (h : decode (cw :: wdata) = d) :
    (cwZ cw = 0 ∧ decodeOp (cwOp cw) (cwSub cw) (cwA cw) wdata = d) ∨
      (cwZ cw ≠ 0 ∧ d = .rejected .reservedBitsSet) := by
  unfold decode at h
  rcases ite_eq_cases h with ⟨hz, h⟩ | ⟨hz, h⟩
  · exact .inr ⟨hz, h.symm⟩
  · exact .inl ⟨not_not.mp hz, h⟩

end Sys2Proof
end

