-- ==== Sys2Proof/Laws/State.lean ====
section
/-! SUPPORT. One lemma per field for each named update of the state that has no case distinction: what
the field holds after it. All are true by unfolding the update. -/

namespace Sys2Proof.Machine

open Sys2Proof

/-! #### `State.refuse` -/

@[simp] theorem State.refuse_params (s : State) : s.refuse.params = s.params := rfl
@[simp] theorem State.refuse_pc (s : State) : s.refuse.pc = s.pc := rfl
@[simp] theorem State.refuse_npc (s : State) : s.refuse.npc = s.npc := rfl
@[simp] theorem State.refuse_msr (s : State) : s.refuse.msr = s.msr := rfl
@[simp] theorem State.refuse_srr0 (s : State) : s.refuse.srr0 = s.srr0 := rfl
@[simp] theorem State.refuse_srr1 (s : State) : s.refuse.srr1 = s.srr1 := rfl
@[simp] theorem State.refuse_esaShadow (s : State) : s.refuse.esaShadow = s.esaShadow := rfl
@[simp] theorem State.refuse_interruptPending (s : State) : s.refuse.interruptPending = s.interruptPending := rfl
@[simp] theorem State.refuse_decrementer (s : State) : s.refuse.decrementer = s.decrementer := rfl
@[simp] theorem State.refuse_timebase (s : State) : s.refuse.timebase = s.timebase := rfl
@[simp] theorem State.refuse_decFraction (s : State) : s.refuse.decFraction = s.decFraction := rfl
@[simp] theorem State.refuse_ibr (s : State) : s.refuse.ibr = s.ibr := rfl
@[simp] theorem State.refuse_hid0 (s : State) : s.refuse.hid0 = s.hid0 := rfl
@[simp] theorem State.refuse_budgetRemaining (s : State) : s.refuse.budgetRemaining = s.budgetRemaining := rfl
@[simp] theorem State.refuse_icountStart (s : State) : s.refuse.icountStart = s.icountStart := rfl
@[simp] theorem State.refuse_triggerOffset (s : State) : s.refuse.triggerOffset = s.triggerOffset := rfl
@[simp] theorem State.refuse_fatal (s : State) : s.refuse.fatal = s.fatal := rfl
@[simp] theorem State.refuse_fatalKind (s : State) : s.refuse.fatalKind = s.fatalKind := rfl
@[simp] theorem State.refuse_executing (s : State) : s.refuse.executing = s.executing := rfl
@[simp] theorem State.refuse_response (s : State) : s.refuse.response = .refused := rfl
@[simp] theorem State.refuse_lastFetch (s : State) : s.refuse.lastFetch = s.lastFetch := rfl
@[simp] theorem State.refuse_lastDispatch (s : State) : s.refuse.lastDispatch = s.lastDispatch := rfl
@[simp] theorem State.refuse_notices (s : State) : s.refuse.notices = s.notices := rfl
@[simp] theorem State.refuse_issuer (s : State) : s.refuse.issuer = s.issuer := rfl
@[simp] theorem State.refuse_port (s : State) : s.refuse.port = s.port := rfl
@[simp] theorem State.refuse_fetchTape (s : State) : s.refuse.fetchTape = s.fetchTape := rfl
@[simp] theorem State.refuse_handlerTape (s : State) : s.refuse.handlerTape = s.handlerTape := rfl
@[simp] theorem State.refuse_fetchCount (s : State) : s.refuse.fetchCount = s.fetchCount := rfl
@[simp] theorem State.refuse_handlerCount (s : State) : s.refuse.handlerCount = s.handlerCount := rfl

/-! #### `State.answer` -/

@[simp] theorem State.answer_params (s : State) (rdata : List Word) : (s.answer rdata).params = s.params := rfl
@[simp] theorem State.answer_pc (s : State) (rdata : List Word) : (s.answer rdata).pc = s.pc := rfl
@[simp] theorem State.answer_npc (s : State) (rdata : List Word) : (s.answer rdata).npc = s.npc := rfl
@[simp] theorem State.answer_msr (s : State) (rdata : List Word) : (s.answer rdata).msr = s.msr := rfl
@[simp] theorem State.answer_srr0 (s : State) (rdata : List Word) : (s.answer rdata).srr0 = s.srr0 := rfl
@[simp] theorem State.answer_srr1 (s : State) (rdata : List Word) : (s.answer rdata).srr1 = s.srr1 := rfl
@[simp] theorem State.answer_esaShadow (s : State) (rdata : List Word) : (s.answer rdata).esaShadow = s.esaShadow := rfl
@[simp] theorem State.answer_interruptPending (s : State) (rdata : List Word) : (s.answer rdata).interruptPending = s.interruptPending := rfl
@[simp] theorem State.answer_decrementer (s : State) (rdata : List Word) : (s.answer rdata).decrementer = s.decrementer := rfl
@[simp] theorem State.answer_timebase (s : State) (rdata : List Word) : (s.answer rdata).timebase = s.timebase := rfl
@[simp] theorem State.answer_decFraction (s : State) (rdata : List Word) : (s.answer rdata).decFraction = s.decFraction := rfl
@[simp] theorem State.answer_ibr (s : State) (rdata : List Word) : (s.answer rdata).ibr = s.ibr := rfl
@[simp] theorem State.answer_hid0 (s : State) (rdata : List Word) : (s.answer rdata).hid0 = s.hid0 := rfl
@[simp] theorem State.answer_budgetRemaining (s : State) (rdata : List Word) : (s.answer rdata).budgetRemaining = s.budgetRemaining := rfl
@[simp] theorem State.answer_icountStart (s : State) (rdata : List Word) : (s.answer rdata).icountStart = s.icountStart := rfl
@[simp] theorem State.answer_triggerOffset (s : State) (rdata : List Word) : (s.answer rdata).triggerOffset = s.triggerOffset := rfl
@[simp] theorem State.answer_fatal (s : State) (rdata : List Word) : (s.answer rdata).fatal = s.fatal := rfl
@[simp] theorem State.answer_fatalKind (s : State) (rdata : List Word) : (s.answer rdata).fatalKind = s.fatalKind := rfl
@[simp] theorem State.answer_executing (s : State) (rdata : List Word) : (s.answer rdata).executing = s.executing := rfl
@[simp] theorem State.answer_response (s : State) (rdata : List Word) : (s.answer rdata).response = .done rdata := rfl
@[simp] theorem State.answer_lastFetch (s : State) (rdata : List Word) : (s.answer rdata).lastFetch = s.lastFetch := rfl
@[simp] theorem State.answer_lastDispatch (s : State) (rdata : List Word) : (s.answer rdata).lastDispatch = s.lastDispatch := rfl
@[simp] theorem State.answer_notices (s : State) (rdata : List Word) : (s.answer rdata).notices = s.notices := rfl
@[simp] theorem State.answer_issuer (s : State) (rdata : List Word) : (s.answer rdata).issuer = s.issuer := rfl
@[simp] theorem State.answer_port (s : State) (rdata : List Word) : (s.answer rdata).port = s.port := rfl
@[simp] theorem State.answer_fetchTape (s : State) (rdata : List Word) : (s.answer rdata).fetchTape = s.fetchTape := rfl
@[simp] theorem State.answer_handlerTape (s : State) (rdata : List Word) : (s.answer rdata).handlerTape = s.handlerTape := rfl
@[simp] theorem State.answer_fetchCount (s : State) (rdata : List Word) : (s.answer rdata).fetchCount = s.fetchCount := rfl
@[simp] theorem State.answer_handlerCount (s : State) (rdata : List Word) : (s.answer rdata).handlerCount = s.handlerCount := rfl

/-! #### `State.abort` -/

@[simp] theorem State.abort_params (s : State) (k : Byte) : (s.abort k).params = s.params := rfl
@[simp] theorem State.abort_pc (s : State) (k : Byte) : (s.abort k).pc = s.pc := rfl
@[simp] theorem State.abort_npc (s : State) (k : Byte) : (s.abort k).npc = s.npc := rfl
@[simp] theorem State.abort_msr (s : State) (k : Byte) : (s.abort k).msr = s.msr := rfl
@[simp] theorem State.abort_srr0 (s : State) (k : Byte) : (s.abort k).srr0 = s.srr0 := rfl
@[simp] theorem State.abort_srr1 (s : State) (k : Byte) : (s.abort k).srr1 = s.srr1 := rfl
@[simp] theorem State.abort_esaShadow (s : State) (k : Byte) : (s.abort k).esaShadow = s.esaShadow := rfl
@[simp] theorem State.abort_interruptPending (s : State) (k : Byte) : (s.abort k).interruptPending = s.interruptPending := rfl
@[simp] theorem State.abort_decrementer (s : State) (k : Byte) : (s.abort k).decrementer = s.decrementer := rfl
@[simp] theorem State.abort_timebase (s : State) (k : Byte) : (s.abort k).timebase = s.timebase := rfl
@[simp] theorem State.abort_decFraction (s : State) (k : Byte) : (s.abort k).decFraction = s.decFraction := rfl
@[simp] theorem State.abort_ibr (s : State) (k : Byte) : (s.abort k).ibr = s.ibr := rfl
@[simp] theorem State.abort_hid0 (s : State) (k : Byte) : (s.abort k).hid0 = s.hid0 := rfl
@[simp] theorem State.abort_budgetRemaining (s : State) (k : Byte) : (s.abort k).budgetRemaining = s.budgetRemaining := rfl
@[simp] theorem State.abort_icountStart (s : State) (k : Byte) : (s.abort k).icountStart = s.icountStart := rfl
@[simp] theorem State.abort_triggerOffset (s : State) (k : Byte) : (s.abort k).triggerOffset = s.triggerOffset := rfl
@[simp] theorem State.abort_fatal (s : State) (k : Byte) : (s.abort k).fatal = true := rfl
@[simp] theorem State.abort_fatalKind (s : State) (k : Byte) : (s.abort k).fatalKind = k := rfl
@[simp] theorem State.abort_executing (s : State) (k : Byte) : (s.abort k).executing = false := rfl
@[simp] theorem State.abort_response (s : State) (k : Byte) : (s.abort k).response = .pending := rfl
@[simp] theorem State.abort_lastFetch (s : State) (k : Byte) : (s.abort k).lastFetch = s.lastFetch := rfl
@[simp] theorem State.abort_lastDispatch (s : State) (k : Byte) : (s.abort k).lastDispatch = s.lastDispatch := rfl
@[simp] theorem State.abort_notices (s : State) (k : Byte) : (s.abort k).notices = s.notices := rfl
@[simp] theorem State.abort_issuer (s : State) (k : Byte) : (s.abort k).issuer = s.issuer := rfl
@[simp] theorem State.abort_port (s : State) (k : Byte) : (s.abort k).port = s.port := rfl
@[simp] theorem State.abort_fetchTape (s : State) (k : Byte) : (s.abort k).fetchTape = s.fetchTape := rfl
@[simp] theorem State.abort_handlerTape (s : State) (k : Byte) : (s.abort k).handlerTape = s.handlerTape := rfl
@[simp] theorem State.abort_fetchCount (s : State) (k : Byte) : (s.abort k).fetchCount = s.fetchCount := rfl
@[simp] theorem State.abort_handlerCount (s : State) (k : Byte) : (s.abort k).handlerCount = s.handlerCount := rfl

/-! #### `State.resetRegs` -/

@[simp] theorem State.resetRegs_params (s : State) : s.resetRegs.params = s.params := rfl
@[simp] theorem State.resetRegs_pc (s : State) : s.resetRegs.pc = s.params.resetVector := rfl
@[simp] theorem State.resetRegs_npc (s : State) : s.resetRegs.npc = s.params.resetVector := rfl
@[simp] theorem State.resetRegs_msr (s : State) : s.resetRegs.msr = 0x00000040 := rfl
@[simp] theorem State.resetRegs_srr0 (s : State) : s.resetRegs.srr0 = s.srr0 := rfl
@[simp] theorem State.resetRegs_srr1 (s : State) : s.resetRegs.srr1 = s.srr1 := rfl
@[simp] theorem State.resetRegs_esaShadow (s : State) : s.resetRegs.esaShadow = s.esaShadow := rfl
@[simp] theorem State.resetRegs_interruptPending (s : State) : s.resetRegs.interruptPending = 0 := rfl
@[simp] theorem State.resetRegs_decrementer (s : State) : s.resetRegs.decrementer = s.decrementer := rfl
@[simp] theorem State.resetRegs_timebase (s : State) : s.resetRegs.timebase = s.timebase := rfl
@[simp] theorem State.resetRegs_decFraction (s : State) : s.resetRegs.decFraction = s.decFraction := rfl
@[simp] theorem State.resetRegs_ibr (s : State) : s.resetRegs.ibr = s.ibr := rfl
@[simp] theorem State.resetRegs_hid0 (s : State) : s.resetRegs.hid0 = 1 := rfl
@[simp] theorem State.resetRegs_budgetRemaining (s : State) : s.resetRegs.budgetRemaining = s.budgetRemaining := rfl
@[simp] theorem State.resetRegs_icountStart (s : State) : s.resetRegs.icountStart = s.icountStart := rfl
@[simp] theorem State.resetRegs_triggerOffset (s : State) : s.resetRegs.triggerOffset = s.triggerOffset := rfl
@[simp] theorem State.resetRegs_fatal (s : State) : s.resetRegs.fatal = s.fatal := rfl
@[simp] theorem State.resetRegs_fatalKind (s : State) : s.resetRegs.fatalKind = s.fatalKind := rfl
@[simp] theorem State.resetRegs_executing (s : State) : s.resetRegs.executing = s.executing := rfl
@[simp] theorem State.resetRegs_response (s : State) : s.resetRegs.response = s.response := rfl
@[simp] theorem State.resetRegs_lastFetch (s : State) : s.resetRegs.lastFetch = s.lastFetch := rfl
@[simp] theorem State.resetRegs_lastDispatch (s : State) : s.resetRegs.lastDispatch = s.lastDispatch := rfl
@[simp] theorem State.resetRegs_notices (s : State) : s.resetRegs.notices = s.notices := rfl
@[simp] theorem State.resetRegs_issuer (s : State) : s.resetRegs.issuer = s.issuer := rfl
@[simp] theorem State.resetRegs_port (s : State) : s.resetRegs.port = s.port := rfl
@[simp] theorem State.resetRegs_fetchTape (s : State) : s.resetRegs.fetchTape = s.fetchTape := rfl
@[simp] theorem State.resetRegs_handlerTape (s : State) : s.resetRegs.handlerTape = s.handlerTape := rfl
@[simp] theorem State.resetRegs_fetchCount (s : State) : s.resetRegs.fetchCount = s.fetchCount := rfl
@[simp] theorem State.resetRegs_handlerCount (s : State) : s.resetRegs.handlerCount = s.handlerCount := rfl

/-! #### `State.loadImage` -/

@[simp] theorem State.loadImage_params (s : State) (m : Image) : (s.loadImage m).params = s.params := rfl
@[simp] theorem State.loadImage_pc (s : State) (m : Image) : (s.loadImage m).pc = m.pc := rfl
@[simp] theorem State.loadImage_npc (s : State) (m : Image) : (s.loadImage m).npc = m.npc := rfl
@[simp] theorem State.loadImage_msr (s : State) (m : Image) : (s.loadImage m).msr = m.msr := rfl
@[simp] theorem State.loadImage_srr0 (s : State) (m : Image) : (s.loadImage m).srr0 = m.srr0 := rfl
@[simp] theorem State.loadImage_srr1 (s : State) (m : Image) : (s.loadImage m).srr1 = m.srr1 := rfl
@[simp] theorem State.loadImage_esaShadow (s : State) (m : Image) : (s.loadImage m).esaShadow = m.esaShadow.setWidth 4 := rfl
@[simp] theorem State.loadImage_interruptPending (s : State) (m : Image) : (s.loadImage m).interruptPending = m.interruptPending.setWidth 3 := rfl
@[simp] theorem State.loadImage_decrementer (s : State) (m : Image) : (s.loadImage m).decrementer = m.decrementer := rfl
@[simp] theorem State.loadImage_timebase (s : State) (m : Image) : (s.loadImage m).timebase = m.timebase := rfl
@[simp] theorem State.loadImage_decFraction (s : State) (m : Image) : (s.loadImage m).decFraction = m.decFraction := rfl
@[simp] theorem State.loadImage_ibr (s : State) (m : Image) : (s.loadImage m).ibr = s.ibr := rfl
@[simp] theorem State.loadImage_hid0 (s : State) (m : Image) : (s.loadImage m).hid0 = m.hid0 := rfl
@[simp] theorem State.loadImage_budgetRemaining (s : State) (m : Image) : (s.loadImage m).budgetRemaining = s.budgetRemaining := rfl
@[simp] theorem State.loadImage_icountStart (s : State) (m : Image) : (s.loadImage m).icountStart = s.icountStart := rfl
@[simp] theorem State.loadImage_triggerOffset (s : State) (m : Image) : (s.loadImage m).triggerOffset = s.triggerOffset := rfl
@[simp] theorem State.loadImage_fatal (s : State) (m : Image) : (s.loadImage m).fatal = s.fatal := rfl
@[simp] theorem State.loadImage_fatalKind (s : State) (m : Image) : (s.loadImage m).fatalKind = s.fatalKind := rfl
@[simp] theorem State.loadImage_executing (s : State) (m : Image) : (s.loadImage m).executing = s.executing := rfl
@[simp] theorem State.loadImage_response (s : State) (m : Image) : (s.loadImage m).response = s.response := rfl
@[simp] theorem State.loadImage_lastFetch (s : State) (m : Image) : (s.loadImage m).lastFetch = s.lastFetch := rfl
@[simp] theorem State.loadImage_lastDispatch (s : State) (m : Image) : (s.loadImage m).lastDispatch = s.lastDispatch := rfl
@[simp] theorem State.loadImage_notices (s : State) (m : Image) : (s.loadImage m).notices = s.notices := rfl
@[simp] theorem State.loadImage_issuer (s : State) (m : Image) : (s.loadImage m).issuer = s.issuer := rfl
@[simp] theorem State.loadImage_port (s : State) (m : Image) : (s.loadImage m).port = s.port := rfl
@[simp] theorem State.loadImage_fetchTape (s : State) (m : Image) : (s.loadImage m).fetchTape = s.fetchTape := rfl
@[simp] theorem State.loadImage_handlerTape (s : State) (m : Image) : (s.loadImage m).handlerTape = s.handlerTape := rfl
@[simp] theorem State.loadImage_fetchCount (s : State) (m : Image) : (s.loadImage m).fetchCount = s.fetchCount := rfl
@[simp] theorem State.loadImage_handlerCount (s : State) (m : Image) : (s.loadImage m).handlerCount = s.handlerCount := rfl

/-! #### `State.enter` -/

@[simp] theorem State.enter_params (s : State) (K : ExcKind) : (s.enter K).params = s.params := rfl
@[simp] theorem State.enter_pc (s : State) (K : ExcKind) : (s.enter K).pc = s.pc := rfl
@[simp] theorem State.enter_npc (s : State) (K : ExcKind) : (s.enter K).npc = s.vectorBase s.msr ||| kindOffset K := rfl
@[simp] theorem State.enter_msr (s : State) (K : ExcKind) : (s.enter K).msr = msrAfterEntry s.params.layout s.msr := rfl
@[simp] theorem State.enter_srr0 (s : State) (K : ExcKind) : (s.enter K).srr0 = s.srr0Of K := rfl
@[simp] theorem State.enter_srr1 (s : State) (K : ExcKind) : (s.enter K).srr1 = srr1Of s.msr (kindMarker K) := rfl
@[simp] theorem State.enter_esaShadow (s : State) (K : ExcKind) : (s.enter K).esaShadow = s.esaShadow := rfl
@[simp] theorem State.enter_interruptPending (s : State) (K : ExcKind) : (s.enter K).interruptPending = s.interruptPending &&& ~~~kindClears s.params K := rfl
@[simp] theorem State.enter_decrementer (s : State) (K : ExcKind) : (s.enter K).decrementer = s.decrementer := rfl
@[simp] theorem State.enter_timebase (s : State) (K : ExcKind) : (s.enter K).timebase = s.timebase := rfl
@[simp] theorem State.enter_decFraction (s : State) (K : ExcKind) : (s.enter K).decFraction = s.decFraction := rfl
@[simp] theorem State.enter_ibr (s : State) (K : ExcKind) : (s.enter K).ibr = s.ibr := rfl
@[simp] theorem State.enter_hid0 (s : State) (K : ExcKind) : (s.enter K).hid0 = s.hid0 := rfl
@[simp] theorem State.enter_budgetRemaining (s : State) (K : ExcKind) : (s.enter K).budgetRemaining = s.budgetRemaining := rfl
@[simp] theorem State.enter_icountStart (s : State) (K : ExcKind) : (s.enter K).icountStart = s.icountStart := rfl
@[simp] theorem State.enter_triggerOffset (s : State) (K : ExcKind) : (s.enter K).triggerOffset = s.triggerOffset := rfl
@[simp] theorem State.enter_fatal (s : State) (K : ExcKind) : (s.enter K).fatal = s.fatal := rfl
@[simp] theorem State.enter_fatalKind (s : State) (K : ExcKind) : (s.enter K).fatalKind = s.fatalKind := rfl
@[simp] theorem State.enter_executing (s : State) (K : ExcKind) : (s.enter K).executing = s.executing := rfl
@[simp] theorem State.enter_response (s : State) (K : ExcKind) : (s.enter K).response = s.response := rfl
@[simp] theorem State.enter_lastFetch (s : State) (K : ExcKind) : (s.enter K).lastFetch = s.lastFetch := rfl
@[simp] theorem State.enter_lastDispatch (s : State) (K : ExcKind) : (s.enter K).lastDispatch = s.lastDispatch := rfl
@[simp] theorem State.enter_notices (s : State) (K : ExcKind) : (s.enter K).notices = s.notices := rfl
@[simp] theorem State.enter_issuer (s : State) (K : ExcKind) : (s.enter K).issuer = s.issuer := rfl
@[simp] theorem State.enter_port (s : State) (K : ExcKind) : (s.enter K).port = s.port := rfl
@[simp] theorem State.enter_fetchTape (s : State) (K : ExcKind) : (s.enter K).fetchTape = s.fetchTape := rfl
@[simp] theorem State.enter_handlerTape (s : State) (K : ExcKind) : (s.enter K).handlerTape = s.handlerTape := rfl
@[simp] theorem State.enter_fetchCount (s : State) (K : ExcKind) : (s.enter K).fetchCount = s.fetchCount := rfl
@[simp] theorem State.enter_handlerCount (s : State) (K : ExcKind) : (s.enter K).handlerCount = s.handlerCount := rfl

/-! #### `State.arm` -/

@[simp] theorem State.arm_params (s : State) (b : Word) : (s.arm b).params = s.params := rfl
@[simp] theorem State.arm_pc (s : State) (b : Word) : (s.arm b).pc = s.pc := rfl
@[simp] theorem State.arm_npc (s : State) (b : Word) : (s.arm b).npc = s.npc := rfl
@[simp] theorem State.arm_msr (s : State) (b : Word) : (s.arm b).msr = s.msr := rfl
@[simp] theorem State.arm_srr0 (s : State) (b : Word) : (s.arm b).srr0 = s.srr0 := rfl
@[simp] theorem State.arm_srr1 (s : State) (b : Word) : (s.arm b).srr1 = s.srr1 := rfl
@[simp] theorem State.arm_esaShadow (s : State) (b : Word) : (s.arm b).esaShadow = s.esaShadow := rfl
@[simp] theorem State.arm_interruptPending (s : State) (b : Word) : (s.arm b).interruptPending = s.interruptPending := rfl
@[simp] theorem State.arm_decrementer (s : State) (b : Word) : (s.arm b).decrementer = s.decrementer := rfl
@[simp] theorem State.arm_timebase (s : State) (b : Word) : (s.arm b).timebase = s.timebase := rfl
@[simp] theorem State.arm_decFraction (s : State) (b : Word) : (s.arm b).decFraction = s.decFraction := rfl
@[simp] theorem State.arm_ibr (s : State) (b : Word) : (s.arm b).ibr = s.ibr := rfl
@[simp] theorem State.arm_hid0 (s : State) (b : Word) : (s.arm b).hid0 = s.hid0 := rfl
@[simp] theorem State.arm_budgetRemaining (s : State) (b : Word) : (s.arm b).budgetRemaining = s.budgetRemaining := rfl
@[simp] theorem State.arm_icountStart (s : State) (b : Word) : (s.arm b).icountStart = b := rfl
@[simp] theorem State.arm_triggerOffset (s : State) (b : Word) : (s.arm b).triggerOffset = (if s.decrementer - b > s.decrementer then triggerOffsetOf s.params s.decrementer b else triggerSentinel) := rfl
@[simp] theorem State.arm_fatal (s : State) (b : Word) : (s.arm b).fatal = s.fatal := rfl
@[simp] theorem State.arm_fatalKind (s : State) (b : Word) : (s.arm b).fatalKind = s.fatalKind := rfl
@[simp] theorem State.arm_executing (s : State) (b : Word) : (s.arm b).executing = s.executing := rfl
@[simp] theorem State.arm_response (s : State) (b : Word) : (s.arm b).response = s.response := rfl
@[simp] theorem State.arm_lastFetch (s : State) (b : Word) : (s.arm b).lastFetch = s.lastFetch := rfl
@[simp] theorem State.arm_lastDispatch (s : State) (b : Word) : (s.arm b).lastDispatch = s.lastDispatch := rfl
@[simp] theorem State.arm_notices (s : State) (b : Word) : (s.arm b).notices = s.notices := rfl
@[simp] theorem State.arm_issuer (s : State) (b : Word) : (s.arm b).issuer = s.issuer := rfl
@[simp] theorem State.arm_port (s : State) (b : Word) : (s.arm b).port = s.port := rfl
@[simp] theorem State.arm_fetchTape (s : State) (b : Word) : (s.arm b).fetchTape = s.fetchTape := rfl
@[simp] theorem State.arm_handlerTape (s : State) (b : Word) : (s.arm b).handlerTape = s.handlerTape := rfl
@[simp] theorem State.arm_fetchCount (s : State) (b : Word) : (s.arm b).fetchCount = s.fetchCount := rfl
@[simp] theorem State.arm_handlerCount (s : State) (b : Word) : (s.arm b).handlerCount = s.handlerCount := rfl

/-! #### `State.beginInvocation` -/

@[simp] theorem State.beginInvocation_params (s : State) (c : Word) : (s.beginInvocation c).params = s.params := rfl
@[simp] theorem State.beginInvocation_pc (s : State) (c : Word) : (s.beginInvocation c).pc = s.pc := rfl
@[simp] theorem State.beginInvocation_npc (s : State) (c : Word) : (s.beginInvocation c).npc = s.npc := rfl
@[simp] theorem State.beginInvocation_msr (s : State) (c : Word) : (s.beginInvocation c).msr = s.msr := rfl
@[simp] theorem State.beginInvocation_srr0 (s : State) (c : Word) : (s.beginInvocation c).srr0 = s.srr0 := rfl
@[simp] theorem State.beginInvocation_srr1 (s : State) (c : Word) : (s.beginInvocation c).srr1 = s.srr1 := rfl
@[simp] theorem State.beginInvocation_esaShadow (s : State) (c : Word) : (s.beginInvocation c).esaShadow = s.esaShadow := rfl
@[simp] theorem State.beginInvocation_interruptPending (s : State) (c : Word) : (s.beginInvocation c).interruptPending = s.interruptPending := rfl
@[simp] theorem State.beginInvocation_decrementer (s : State) (c : Word) : (s.beginInvocation c).decrementer = s.decrementer := rfl
@[simp] theorem State.beginInvocation_timebase (s : State) (c : Word) : (s.beginInvocation c).timebase = s.timebase := rfl
@[simp] theorem State.beginInvocation_decFraction (s : State) (c : Word) : (s.beginInvocation c).decFraction = s.decFraction := rfl
@[simp] theorem State.beginInvocation_ibr (s : State) (c : Word) : (s.beginInvocation c).ibr = s.ibr := rfl
@[simp] theorem State.beginInvocation_hid0 (s : State) (c : Word) : (s.beginInvocation c).hid0 = s.hid0 := rfl
@[simp] theorem State.beginInvocation_budgetRemaining (s : State) (c : Word) : (s.beginInvocation c).budgetRemaining = c := rfl
@[simp] theorem State.beginInvocation_icountStart (s : State) (c : Word) : (s.beginInvocation c).icountStart = c := rfl
@[simp] theorem State.beginInvocation_triggerOffset (s : State) (c : Word) : (s.beginInvocation c).triggerOffset = (if s.decrementer - c > s.decrementer then triggerOffsetOf s.params s.decrementer c else triggerSentinel) := rfl
@[simp] theorem State.beginInvocation_fatal (s : State) (c : Word) : (s.beginInvocation c).fatal = s.fatal := rfl
@[simp] theorem State.beginInvocation_fatalKind (s : State) (c : Word) : (s.beginInvocation c).fatalKind = s.fatalKind := rfl
@[simp] theorem State.beginInvocation_executing (s : State) (c : Word) : (s.beginInvocation c).executing = true := rfl
@[simp] theorem State.beginInvocation_response (s : State) (c : Word) : (s.beginInvocation c).response = .pending := rfl
@[simp] theorem State.beginInvocation_lastFetch (s : State) (c : Word) : (s.beginInvocation c).lastFetch = s.lastFetch := rfl
@[simp] theorem State.beginInvocation_lastDispatch (s : State) (c : Word) : (s.beginInvocation c).lastDispatch = s.lastDispatch := rfl
@[simp] theorem State.beginInvocation_notices (s : State) (c : Word) : (s.beginInvocation c).notices = s.notices := rfl
@[simp] theorem State.beginInvocation_issuer (s : State) (c : Word) : (s.beginInvocation c).issuer = s.issuer := rfl
@[simp] theorem State.beginInvocation_port (s : State) (c : Word) : (s.beginInvocation c).port = s.port := rfl
@[simp] theorem State.beginInvocation_fetchTape (s : State) (c : Word) : (s.beginInvocation c).fetchTape = s.fetchTape := rfl
@[simp] theorem State.beginInvocation_handlerTape (s : State) (c : Word) : (s.beginInvocation c).handlerTape = s.handlerTape := rfl
@[simp] theorem State.beginInvocation_fetchCount (s : State) (c : Word) : (s.beginInvocation c).fetchCount = s.fetchCount := rfl
@[simp] theorem State.beginInvocation_handlerCount (s : State) (c : Word) : (s.beginInvocation c).handlerCount = s.handlerCount := rfl

end Sys2Proof.Machine
end

