-- ==== Sys2Proof/Laws/Ops.lean ====
section
/-! SUPPORT. For each shared operation one lemma that says everything it can do, cited instead of
unfolding the operation; and the single bits of the masks of `msr`. -/

namespace Sys2Proof.Machine

open Sys2Proof

/-! ### Bits of `msr` -/

theorem msrMask_getLsbD (l : MsrLayout) (f : MsrField) (k : Nat) :
    (msrMask l f).getLsbD k = decide (k = (l.index f).val) := by
  have h := (l.index f).isLt
  unfold msrMask
  rw [← BitVec.twoPow_eq, BitVec.getLsbD_twoPow]
  by_cases hk : k = (l.index f).val
  · simp [hk]
  · simp [hk, Ne.symm hk]

theorem msrMasks_getLsbD (l : MsrLayout) (fs : List MsrField) (k : Nat) :
    (msrMasks l fs).getLsbD k = decide (∃ f ∈ fs, k = (l.index f).val) := by
  induction fs with
  | nil => simp [msrMasks]
  | cons f fs ih =>
    simp only [msrMasks, BitVec.getLsbD_or, msrMask_getLsbD, ih]
    simp

theorem msrPlace_getLsbD (l : MsrLayout) (f : MsrField) (b : Bool) (k : Nat) :
    (msrPlace l f b).getLsbD k = (b && decide (k = (l.index f).val)) := by
  cases b <;> simp [msrPlace, msrMask_getLsbD]

/-- In a layout that R16 allows, two fields share a bit index only if they are the same field. -/
theorem layout_index_inj {l : MsrLayout} (h : l.wf) (f g : MsrField) :
    (l.index f).val = (l.index g).val ↔ f = g := by
  have mem : ∀ f : MsrField, f ∈ MsrField.all := by intro f; cases f <;> decide
  constructor
  · intro e
    exact List.inj_on_of_nodup_map h (mem f) (mem g) (Fin.ext e)
  · rintro rfl; rfl

/-- One bit of `msr` after an exception entry, in any layout (R105). -/
theorem msrAfterEntry_getLsbD (l : MsrLayout) (m : Word) (k : Nat) (hk : k < 32) :
    (msrAfterEntry l m).getLsbD k =
      ((m.getLsbD k && !decide (∃ f ∈ clearedFields, k = (l.index f).val)
          && !decide (k = (l.index .le).val))
        || (msrBit l m .ile && decide (k = (l.index .le).val))) := by
  simp only [msrAfterEntry, clearMask, BitVec.getLsbD_or, BitVec.getLsbD_and, BitVec.getLsbD_not, hk, decide_true, Bool.true_and,
    msrMask_getLsbD, msrMasks_getLsbD, msrPlace_getLsbD]

/-- One bit of `msr` after ENTER_SUPERVISOR (R91). -/
theorem msrEntered_getLsbD (l : MsrLayout) (m : Word) (k : Nat) (hk : k < 32) :
    (msrEntered l m).getLsbD k =
      ((m.getLsbD k
          && !decide (∃ f ∈ [MsrField.ee, .pr, .ap], k = (l.index f).val))
        || decide (k = (l.index .sa).val)) := by
  simp only [msrEntered, BitVec.getLsbD_or, BitVec.getLsbD_and, BitVec.getLsbD_not, hk, decide_true, Bool.true_and,
    msrMask_getLsbD, msrMasks_getLsbD]

/-- One bit of `msr` after RESTORE_FROM_SUPERVISOR (R92). -/
theorem msrRestored_getLsbD (l : MsrLayout) (sh : BitVec 4) (m : Word) (k : Nat) (hk : k < 32) :
    (msrRestored l sh m).getLsbD k =
      ((m.getLsbD k
          && !decide (∃ f ∈ [MsrField.sa, .ee, .pr, .ap], k = (l.index f).val))
        || (sh.getLsbD 0 && decide (k = (l.index .ee).val))
        || (sh.getLsbD 1 && decide (k = (l.index .sa).val))
        || (sh.getLsbD 2 && decide (k = (l.index .ap).val))
        || (sh.getLsbD 3 && decide (k = (l.index .pr).val))) := by
  simp only [msrRestored, BitVec.getLsbD_or, BitVec.getLsbD_and, BitVec.getLsbD_not, hk, decide_true, Bool.true_and,
    msrMasks_getLsbD, msrPlace_getLsbD]

/-- The four bits of the packed shadow (R64). -/
theorem packShadow_bits (l : MsrLayout) (m : Word) :
    (packShadow l m).getLsbD 0 = msrBit l m .ee ∧ (packShadow l m).getLsbD 1 = msrBit l m .sa ∧
      (packShadow l m).getLsbD 2 = msrBit l m .ap ∧ (packShadow l m).getLsbD 3 = msrBit l m .pr := by
  unfold packShadow
  generalize msrBit l m .ee = a
  generalize msrBit l m .sa = b
  generalize msrBit l m .ap = c
  generalize msrBit l m .pr = d
  revert a b c d
  decide

/-! ### Requests -/

/-- A meaning either refuses its operation, or does it; it never stops the machine. -/
theorem serve_eq (s : State) (i : Instr) (f : State → State) :
    s.serve i f = .next (if (s.denial i).isSome then s.refuse else f s) := by
  unfold State.serve
  cases s.denial i <;> simp

theorem serve_admitted {s : State} {i : Instr} (h : s.denial i = none) (f : State → State) :
    s.serve i f = .next (f s) := by simp [serve_eq, h]

theorem serve_denied {s : State} {i : Instr} {d : Denial} (h : s.denial i = some d)
    (f : State → State) : s.serve i f = .next s.refuse := by simp [serve_eq, h]

/-- The requests of R74 among the operations of the table. -/
theorem asksUnknownKind_iff (s : State) (i : Instr) :
    s.asksUnknownKind i = true ↔ s.params.variant = .v602 ∧ (i = .excDsi ∨ i = .excIsi) := by
  unfold State.asksUnknownKind
  cases i <;> cases s.params.variant <;> simp [requestedKind, kindKnown]

/-- An operation a handler may ask for is no request of R74. -/
theorem asksUnknownKind_of_handler {i : Instr} (h : Issuer.handler ∈ issuersOf i) (s : State) :
    s.asksUnknownKind i = false := by
  cases i <;> first | rfl | simp [issuersOf] at h

/-- A request of R74 is admitted exactly in a live session, whoever makes it. -/
theorem denial_unknown {s : State} {i : Instr} (h : s.asksUnknownKind i = true) :
    s.denial i = none ↔ s.fatal = false := by
  have hw : i.wf = true := by
    rcases ((asksUnknownKind_iff s i).1 h).2 with rfl | rfl <;> rfl
  unfold State.denial
  cases hf : s.fatal <;> simp [hw, h]

/-- Any other operation is admitted exactly when no clause of R73 applies to it. -/
theorem denial_eq_none_iff {s : State} {i : Instr} (hu : s.asksUnknownKind i = false) :
    s.denial i = none ↔
      i.wf = true ∧ s.issuer ∈ issuersOf i ∧ (s.issuer = .host → s.executing = false) ∧
        (s.fatal = true → admittedWhenFatal i = true) ∧
        (only602 i = true → s.params.variant ≠ .v603) ∧
        (s.issuer = .handler → closedToHandler i = false) := by
  unfold State.denial
  cases hw : i.wf <;> by_cases hi : s.issuer ∈ issuersOf i <;> cases hx : s.executing <;>
    cases hf : s.fatal <;> cases ha : admittedWhenFatal i <;> cases ho : only602 i <;>
    cases hc : closedToHandler i <;> by_cases hh : s.issuer = .host <;>
    by_cases hn : s.issuer = .handler <;> by_cases hv : s.params.variant = .v603 <;>
    simp_all

/-- Where no clause of R73 applies, every operation is admitted. -/
theorem denial_eq_none_of {s : State} {i : Instr} (hw : i.wf = true) (hi : s.issuer ∈ issuersOf i)
    (hx : s.issuer = .host → s.executing = false)
    (hf : s.fatal = true → admittedWhenFatal i = true)
    (hv : only602 i = true → s.params.variant ≠ .v603)
    (hc : s.issuer = .handler → closedToHandler i = false) : s.denial i = none := by
  cases hu : s.asksUnknownKind i
  · exact (denial_eq_none_iff hu).2 ⟨hw, hi, hx, hf, hv, hc⟩
  · refine (denial_unknown hu).2 ?_
    cases h : s.fatal
    · rfl
    · rcases ((asksUnknownKind_iff s i).1 hu).2 with rfl | rfl <;> exact absurd (hf h) (by decide)

/-- The same for an effect of a handler. -/
theorem effect_denial_eq_none_iff {s : State} {e : Instr} (h : Issuer.handler ∈ issuersOf e) :
    State.denial { s with issuer := .handler } e = none ↔
      e.wf = true ∧ (s.fatal = true → admittedWhenFatal e = true) ∧
        (only602 e = true → s.params.variant ≠ .v603) ∧ closedToHandler e = false := by
  rw [denial_eq_none_iff (asksUnknownKind_of_handler h _)]
  simp [h]

/-! ### Exceptions -/

/-- What a dispatch can do: nothing, when it is gated off, or the five writes (R101, R114). -/
theorem dispatch_cases (s : State) (K : ExcKind) :
    (s.gatedOff K = true ∧ s.dispatch K = s) ∨ (s.gatedOff K = false ∧ s.dispatch K = s.enter K) := by
  unfold State.dispatch
  cases h : s.gatedOff K <;> simp

/-- What taking an exception by code can do: the dispatch of a known kind, or the abort. -/
theorem raise_cases (s : State) (k : Byte) :
    (∃ K, kindOfCode s.params.variant k = some K ∧ s.raise k = s.dispatch K) ∨
      (kindOfCode s.params.variant k = none ∧ s.raise k = s.abort k) := by
  unfold State.raise
  cases h : kindOfCode s.params.variant k <;> simp

/-- The same at the port. -/
theorem raiseAnswered_cases (s : State) (k : Byte) :
    (∃ K, kindOfCode s.params.variant k = some K ∧ s.raiseAnswered k = (s.dispatch K).answer []) ∨
      (kindOfCode s.params.variant k = none ∧ s.raiseAnswered k = s.abort k) := by
  unfold State.raiseAnswered
  cases h : kindOfCode s.params.variant k <;> simp

theorem kindOfCode_kindCode (v : Variant) (K : ExcKind) :
    kindOfCode v (kindCode K) = if kindKnown v K then some K else none := by
  cases v <;> cases K <;> decide

/-- A code stands for a kind exactly when it is that kind's and the variant knows it (R58). -/
theorem kindOfCode_eq_some_iff (v : Variant) (k : Byte) (K : ExcKind) :
    kindOfCode v k = some K ↔ k = kindCode K ∧ kindKnown v K = true := by
  cases v <;> cases K <;> revert k <;> decide

/-- OR and AND of two numbers below a power of two add up to their sum. -/
theorem nat_or_add_and : ∀ (n a b : Nat), a < 2 ^ n → b < 2 ^ n → (a ||| b) + (a &&& b) = a + b
  | 0, a, b, ha, hb => by
    obtain ⟨rfl, rfl⟩ : a = 0 ∧ b = 0 := by omega
    rfl
  | n + 1, a, b, ha, hb => by
    have half := nat_or_add_and n (a / 2) (b / 2) (by omega) (by omega)
    rw [← Nat.or_div_two, ← Nat.and_div_two] at half
    have low : (a ||| b) % 2 + (a &&& b) % 2 = a % 2 + b % 2 := by
      have e₁ : (a ||| b) % 2 = a % 2 ||| b % 2 := Nat.or_mod_two_pow (n := 1)
      have e₂ : (a &&& b) % 2 = (a % 2 &&& b % 2) := Nat.and_mod_two_pow (n := 1)
      rw [e₁, e₂]
      rcases Nat.mod_two_eq_zero_or_one a with x | x <;>
        rcases Nat.mod_two_eq_zero_or_one b with y | y <;> rw [x, y] <;> rfl
    omega

/-- The OR of two words is their sum exactly when they share no bit. -/
theorem or_eq_add_iff (b o : Word) : b ||| o = b + o ↔ b &&& o = 0 := by
  constructor
  · intro e
    have h₁ := nat_or_add_and 32 b.toNat o.toNat b.isLt o.isLt
    have h₂ := congrArg BitVec.toNat e
    rw [BitVec.toNat_or, BitVec.toNat_add] at h₂
    have h₃ : b.toNat &&& o.toNat ≤ b.toNat := Nat.and_le_left
    have h₄ := b.isLt
    apply BitVec.eq_of_toNat_eq
    rw [BitVec.toNat_and]
    show _ = 0
    omega
  · exact fun h => (BitVec.add_eq_or_of_and_eq_zero b o h).symm

/-! ### Interrupts -/

/-- The kind CHECK picks, when a bit is set. -/
theorem pendingKind_of_ne_zero (l : BitVec 3) (h : l ≠ 0) :
    pendingKind l = some (if l.getLsbD 0 then .irq else if l.getLsbD 1 then .decrementer else .smi) := by
  revert l; decide

theorem notify_cases (s : State) :
    s.notify = s ∨ s.notify = { s with notices := s.notices ++ [⟨s.params.device, s.params.irqNumber⟩] } := by
  unfold State.notify
  split
  · exact .inr rfl
  · exact .inl rfl

/-- What CHECK can do: nothing, or one dispatch of the kind of highest priority (R123). -/
theorem checkPending_cases (s : State) :
    s.checkPending = s ∨
      ∃ K, s.msrF .ee = true ∧ pendingKind s.interruptPending = some K ∧
        s.checkPending = s.enter K ∧ kindAsync K = true := by
  unfold State.checkPending
  by_cases he : s.msrF .ee = true
  · cases hk : pendingKind s.interruptPending with
    | none => simp [he]
    | some K =>
      have ha : kindAsync K = true := by
        unfold pendingKind at hk
        split at hk
        · cases hk; rfl
        · split at hk
          · cases hk; rfl
          · split at hk
            · cases hk; rfl
            · cases hk
      refine .inr ⟨K, he, rfl, ?_, ha⟩
      simp [he, State.dispatch, State.gatedOff]
  · simp [he]

/-! ### Timing -/

theorem tick_cases (s : State) :
    (s.consumed ≠ s.triggerOffset ∧ s.tick = s) ∨
      (s.consumed = s.triggerOffset ∧
        s.tick = { s with interruptPending := s.interruptPending ||| pendDecrementer }) := by
  unfold State.tick
  by_cases h : s.consumed = s.triggerOffset <;> simp [h]

/-! ### Collaborators -/

/-- A fetch takes the next answer of the tape, or the free value, and changes nothing but the tape, the
count and the latched request (R41). -/
theorem fetch_cases (s : State) :
    (∃ a rest, s.fetchTape = a :: rest ∧ s.fetch = (a, { s with
        lastFetch := some ⟨s.pc, s.xlateFetch⟩, fetchCount := s.fetchCount + 1,
        fetchTape := rest })) ∨
      (s.fetchTape = [] ∧ s.fetch = (Config.readOpcode s.fetchCount s.pc s.xlateFetch, { s with
        lastFetch := some ⟨s.pc, s.xlateFetch⟩, fetchCount := s.fetchCount + 1 })) := by
  unfold State.fetch
  cases h : s.fetchTape with
  | nil => exact .inr ⟨rfl, rfl⟩
  | cons a rest => exact .inl ⟨a, rest, rfl, rfl⟩

/-- The same of a call of the handler (R160, R187). -/
theorem callHandler_cases (s : State) (w : Word) :
    (∃ a rest, s.handlerTape = a :: rest ∧ s.callHandler w = (a, { s with
        lastDispatch := some ⟨tableIndexOf w, w⟩, handlerCount := s.handlerCount + 1,
        handlerTape := rest })) ∨
      (s.handlerTape = [] ∧ s.callHandler w =
        (Config.dispatchOpcode s.handlerCount s.regWords (tableIndexOf w) w, { s with
          lastDispatch := some ⟨tableIndexOf w, w⟩, handlerCount := s.handlerCount + 1 })) := by
  unfold State.callHandler
  cases h : s.handlerTape with
  | nil => exact .inr ⟨rfl, rfl⟩
  | cons a rest => exact .inl ⟨a, rest, rfl, rfl⟩

end Sys2Proof.Machine
end

