-- ==== Sys2Proof/Laws/Exec.lean ====
section
/-! SUPPORT. All meanings in one form: `exec` refuses the operation or does its effect, and what a
handler's effect can be. -/

namespace Sys2Proof.Machine

open Sys2Proof

/-- What an operation does once it is admitted. -/
def effectOf (i : Instr) (s : State) : State :=
  match i with
  | .reset => s.resetRegs.answer []
  | .execute cycles => s.beginInvocation cycles
  | .stateSave => s.answer (imageWords s.image)
  | .stateLoad image => (s.loadImage image).answer []
  | .msrGet => s.answer [s.msr]
  | .msrSet value => State.answer { s with msr := value } []
  | .enterSupervisor =>
    State.answer { s with
      esaShadow := packShadow s.params.layout s.msr
      msr := msrEntered s.params.layout s.msr } []
  | .restoreFromSupervisor =>
    State.answer { s with msr := msrRestored s.params.layout s.esaShadow s.msr } []
  | .regRead index =>
    match regOfIndex index with
    | some r => s.answer [s.readReg r]
    | none => s.refuse
  | .regWrite index value =>
    match regOfIndex index with
    | some r => (s.writeReg r value).answer []
    | none => s.refuse
  | .excIrq => s.raiseAnswered (kindCode .irq)
  | .excDecrementer => s.raiseAnswered (kindCode .decrementer)
  | .excTrap => s.raiseAnswered (kindCode .trap)
  | .excSyscall => s.raiseAnswered (kindCode .syscall)
  | .excSmi => s.raiseAnswered (kindCode .smi)
  | .excDsi => s.raiseAnswered (kindCode .dsi)
  | .excIsi => s.raiseAnswered (kindCode .isi)
  | .setIrqLine active => (s.irqLine active).answer []
  | .setSmiLine active => (s.smiLine active).answer []
  | .check => s.checkPending.answer []
  | .tuArm budget => (s.arm budget).answer []
  | .tuTick => s.tick.answer []
  | .tuCommit => s.commit.answer []

theorem exec_eq_serve (i : Instr) (s : State) : exec i s = s.serve i (effectOf i) := by
  cases i <;> rfl

/-- Everything `exec` can do (R73 and the rule of each operation). -/
theorem exec_eq (i : Instr) (s : State) :
    exec i s = .next (if (s.denial i).isSome then s.refuse else effectOf i s) := by
  rw [exec_eq_serve, serve_eq]

theorem exec_admitted {i : Instr} {s : State} (h : s.denial i = none) :
    exec i s = .next (effectOf i s) := by simp [exec_eq, h]

theorem exec_denied {i : Instr} {s : State} {d : Denial} (h : s.denial i = some d) :
    exec i s = .next s.refuse := by simp [exec_eq, h]

/-- An operation that is none of a handler's is no effect (R170). -/
theorem applyEffect_of_not_handler {s : State} {e : Instr} (h : Issuer.handler ∉ issuersOf e) :
    s.applyEffect e = s := by
  simp [State.applyEffect, h]

/-- A refused effect of a handler changes nothing (R170). -/
theorem applyEffect_denied {s : State} {e : Instr} {d : Denial}
    (h : State.denial { s with issuer := .handler } e = some d) : s.applyEffect e = s := by
  simp [State.applyEffect, exec_denied h, State.refuse]

theorem applyEffect_admitted {s : State} {e : Instr} (hm : Issuer.handler ∈ issuersOf e)
    (h : State.denial { s with issuer := .handler } e = none) :
    s.applyEffect e =
      { effectOf e { s with issuer := .handler } with issuer := s.issuer, response := s.response } := by
  simp [State.applyEffect, hm, exec_admitted h]

end Sys2Proof.Machine
end

