-- ==== Sys2Proof/Laws/Loop.lean ====
section
/-! SUPPORT. What a step, an iteration of the loop, a handler's effect and the end of an instruction
can do. -/

namespace Sys2Proof.Machine

open Sys2Proof

theorem step_executing {s : State} (h : s.executing = true) : step s = .next s.advance := by
  simp [step, h]

theorem step_idle {s : State} (h : s.executing = false) : step s = s.servePort := by
  simp [step, h]

/-- A run goes on from the state its first step gives. -/
theorem run_succ {s t : State} (h : step s = .next t) (k : Nat) :
    Host.Core.run Sys2Proof.core (k + 1) s = Host.Core.run Sys2Proof.core k t := by
  have h' : Sys2Proof.core.step s = .next t := h
  simp only [Host.Core.run, h']

/-- Everything one effect of a handler can do (R170): nothing, or one of the writes that are open to a
handler. -/
theorem applyEffect_cases (s : State) (e : Instr) :
    s.applyEffect e = s ∨
      (∃ v, e = .msrSet v ∧ s.fatal = false ∧ s.applyEffect e = { s with msr := v }) ∨
      (e = .enterSupervisor ∧ s.fatal = false ∧ s.params.variant = .v602 ∧
        s.applyEffect e = { s with
          esaShadow := packShadow s.params.layout s.msr,
          msr := msrEntered s.params.layout s.msr }) ∨
      (e = .restoreFromSupervisor ∧ s.fatal = false ∧ s.params.variant = .v602 ∧
        s.applyEffect e =
          { s with msr := msrRestored s.params.layout s.esaShadow s.msr }) ∨
      (∃ k v r, e = .regWrite k v ∧ s.fatal = false ∧ regOfIndex k = some r ∧
        handlerMayWrite r = true ∧ s.applyEffect e = s.writeReg r v) ∨
      (e = .setIrqLine true ∧ s.fatal = false ∧ s.applyEffect e = s.irqLine true) ∨
      (e = .setSmiLine true ∧ s.fatal = false ∧ s.applyEffect e = s.smiLine true) := by
  by_cases h2 : Issuer.handler ∈ issuersOf e
  case neg => exact .inl (applyEffect_of_not_handler h2)
  cases hd : State.denial { s with issuer := .handler } e with
  | some d => exact .inl (applyEffect_denied hd)
  | none =>
    rw [applyEffect_admitted h2 hd]
    obtain ⟨-, h4, h5, h6⟩ := (effect_denial_eq_none_iff h2).1 hd
    have hf : admittedWhenFatal e = false → s.fatal = false := by
      intro ha
      cases h : s.fatal
      · rfl
      · exact absurd (h4 h) (by simp [ha])
    have hv : only602 e = true → s.params.variant = .v602 := by
      intro ho
      cases h : s.params.variant
      · rfl
      · exact absurd h (h5 ho)
    cases e
    case msrGet => exact .inl rfl
    case regRead k => left; simp only [effectOf]; cases regOfIndex k <;> rfl
    case msrSet v => exact .inr (.inl ⟨v, rfl, hf rfl, rfl⟩)
    case enterSupervisor => exact .inr (.inr (.inl ⟨rfl, hf rfl, hv rfl, rfl⟩))
    case restoreFromSupervisor => exact .inr (.inr (.inr (.inl ⟨rfl, hf rfl, hv rfl, rfl⟩)))
    case regWrite k v =>
      have hc := h6
      simp only [closedToHandler, effectOf] at hc ⊢
      cases hr : regOfIndex k with
      | none => simp [hr] at hc
      | some r =>
        have hm : handlerMayWrite r = true := by simpa [hr] using hc
        refine .inr (.inr (.inr (.inr (.inl ⟨k, v, r, rfl, hf rfl, hr, hm, ?_⟩))))
        cases r <;> rfl
    case setIrqLine a =>
      cases a
      · exact .inl rfl
      · refine .inr (.inr (.inr (.inr (.inr (.inl ⟨rfl, hf rfl, ?_⟩)))))
        rcases hc : s.params.callbackInstalled <;>
          simp [effectOf, State.irqLine, State.notify, State.answer, hc]
    case setSmiLine a =>
      cases a
      · exact .inl rfl
      · exact .inr (.inr (.inr (.inr (.inr (.inr ⟨rfl, hf rfl, rfl⟩)))))
    all_goals simp [issuersOf] at h2

@[simp] theorem applyEffects_nil (s : State) : s.applyEffects [] = s := rfl

@[simp] theorem applyEffects_cons (s : State) (e : Instr) (es : List Instr) :
    s.applyEffects (e :: es) = (s.applyEffect e).applyEffects es := rfl

/-- One effect, as `exec` gives it (R170). -/
theorem applyEffect_of_exec {s t : State} {e : Instr} (hm : Issuer.handler ∈ issuersOf e)
    (h : exec e { s with issuer := .handler } = .next t) :
    s.applyEffect e = { t with issuer := s.issuer, response := s.response } := by
  simp [State.applyEffect, hm, h]

/-- A property of the state that every effect of a handler keeps, is kept by any list of them. -/
theorem applyEffects_induct {P : State → Prop} (h : ∀ t e, P t → P (t.applyEffect e)) :
    ∀ (es : List Instr) (s : State), P s → P (s.applyEffects es)
  | [], _, hs => hs
  | e :: es, s, hs => applyEffects_induct h es (s.applyEffect e) (h s e hs)

/-- The escape: an entry that returns to the aborted instruction, nothing but `npc = pc` if the kind is
gated off, or the abort (R163, R172). -/
theorem escape_cases (s : State) (k : Byte) :
    (∃ K, kindOfCode s.params.variant k = some K ∧
      ((State.gatedOff s K = true ∧ s.escape k = { s with npc := s.pc }) ∨
        (State.gatedOff s K = false ∧ s.escape k = State.enter { s with npc := s.pc } K))) ∨
      (kindOfCode s.params.variant k = none ∧
        s.escape k = State.abort { s with npc := s.pc } k) := by
  rcases raise_cases { s with npc := s.pc } k with ⟨K, hk, e⟩ | ⟨hk, e⟩
  · refine .inl ⟨K, hk, ?_⟩
    rcases dispatch_cases { s with npc := s.pc } K with ⟨hg, e'⟩ | ⟨hg, e'⟩
    · exact .inl ⟨hg, e.trans e'⟩
    · exact .inr ⟨hg, e.trans e'⟩
  · exact .inr ⟨hk, e⟩

/-- What a fetch leaves as it was. -/
theorem fetch_frame {s t : State} {a : FetchAnswer} (h : s.fetch = (a, t)) :
    ∃ tape, t = { s with
      lastFetch := some ⟨s.pc, s.xlateFetch⟩, fetchCount := s.fetchCount + 1,
      fetchTape := tape } := by
  rcases fetch_cases s with ⟨b, rest, -, e⟩ | ⟨e', e⟩ <;> rw [e] at h <;> cases h
  · exact ⟨rest, rfl⟩
  · exact ⟨s.fetchTape, rfl⟩

/-- What a call of the handler leaves as it was. -/
theorem callHandler_frame {s t : State} {w : Word} {a : HandlerAnswer}
    (h : s.callHandler w = (a, t)) :
    ∃ tape, t = { s with
      lastDispatch := some ⟨tableIndexOf w, w⟩, handlerCount := s.handlerCount + 1,
      handlerTape := tape } := by
  rcases callHandler_cases s w with ⟨b, rest, -, e⟩ | ⟨e', e⟩ <;> rw [e] at h <;> cases h
  · exact ⟨rest, rfl⟩
  · exact ⟨s.handlerTape, rfl⟩

/-- The three shapes of an iteration (R158 to R163, R169): the fetch raises; the handler raises; the
handler answers with effects and the instruction retires. What the collaborators said shows in the
tapes only. -/
theorem iterate_cases (s : State) :
    (∃ k tape, s.iterate = State.escape { s with
        pc := s.npc, lastFetch := some ⟨s.npc, s.msrF .ir⟩, fetchCount := s.fetchCount + 1,
        fetchTape := tape } k) ∨
      (∃ w k tape tape', s.iterate = State.escape { s with
        pc := s.npc, npc := s.npc + 4,
        lastFetch := some ⟨s.npc, s.msrF .ir⟩, fetchCount := s.fetchCount + 1, fetchTape := tape,
        lastDispatch := some ⟨tableIndexOf w, w⟩, handlerCount := s.handlerCount + 1,
        handlerTape := tape' } k) ∨
      (∃ w es tape tape', s.iterate = State.retire (State.applyEffects { s with
        pc := s.npc, npc := s.npc + 4,
        lastFetch := some ⟨s.npc, s.msrF .ir⟩, fetchCount := s.fetchCount + 1, fetchTape := tape,
        lastDispatch := some ⟨tableIndexOf w, w⟩, handlerCount := s.handlerCount + 1,
        handlerTape := tape' } es)) := by
  have hir : State.xlateFetch { s with pc := s.npc } = s.msrF .ir := rfl
  unfold State.iterate
  rcases hf : State.fetch { s with pc := s.npc } with ⟨a, t⟩
  obtain ⟨tape, rfl⟩ := fetch_frame hf
  cases a with
  | raise k => exact .inl ⟨k, tape, rfl⟩
  | word w =>
    right
    simp only [State.runWord, hir]
    generalize hq : State.callHandler _ w = q
    obtain ⟨b, u⟩ := q
    obtain ⟨tape', rfl⟩ := callHandler_frame hq
    cases b with
    | raise k => exact .inl ⟨w, k, tape, tape', rfl⟩
    | resume es => exact .inr ⟨w, es, tape, tape', rfl⟩

/-- An iteration whose fetch answers a word and whose handler answers, from the tapes. -/
theorem iterate_resume {s : State} {w : Word} {es : List Instr} {fs : List FetchAnswer}
    {hs : List HandlerAnswer} (hf : s.fetchTape = .word w :: fs)
    (hh : s.handlerTape = .resume es :: hs) :
    s.iterate = State.retire (State.applyEffects { s with
      pc := s.npc, npc := s.npc + 4,
      lastFetch := some ⟨s.npc, s.msrF .ir⟩, fetchCount := s.fetchCount + 1, fetchTape := fs,
      lastDispatch := some ⟨tableIndexOf w, w⟩, handlerCount := s.handlerCount + 1,
      handlerTape := hs } es) := by
  simp only [State.iterate, State.fetch, hf, State.runWord, State.callHandler, hh]
  rfl

/-- An iteration whose fetch answers a word and whose handler raises, from the tapes. -/
theorem iterate_raise {s : State} {w : Word} {k : Byte} {fs : List FetchAnswer}
    {hs : List HandlerAnswer} (hf : s.fetchTape = .word w :: fs)
    (hh : s.handlerTape = .raise k :: hs) :
    s.iterate = State.escape { s with
      pc := s.npc, npc := s.npc + 4,
      lastFetch := some ⟨s.npc, s.msrF .ir⟩, fetchCount := s.fetchCount + 1, fetchTape := fs,
      lastDispatch := some ⟨tableIndexOf w, w⟩, handlerCount := s.handlerCount + 1,
      handlerTape := hs } k := by
  simp only [State.iterate, State.fetch, hf, State.runWord, State.callHandler, hh]
  rfl

/-- An iteration whose fetch raises, from the tape. -/
theorem iterate_fetch_raise {s : State} {k : Byte} {fs : List FetchAnswer}
    (hf : s.fetchTape = .raise k :: fs) :
    s.iterate = State.escape { s with
      pc := s.npc, lastFetch := some ⟨s.npc, s.msrF .ir⟩, fetchCount := s.fetchCount + 1,
      fetchTape := fs } k := by
  simp only [State.iterate, State.fetch, hf]
  rfl

/-- The end of an instruction: the budget, the compare, and the check on the state that leaves. -/
theorem retire_eq (s : State) :
    s.retire = State.checkPending { s with
      budgetRemaining := s.budgetRemaining - 1,
      interruptPending :=
        if s.icountStart - (s.budgetRemaining - 1) = s.triggerOffset then
          s.interruptPending ||| pendDecrementer else s.interruptPending } := by
  unfold State.retire State.tick State.consumed
  by_cases h : s.icountStart - (s.budgetRemaining - 1) = s.triggerOffset <;>
    simp only [h, if_true, if_false]

end Sys2Proof.Machine
end

