-- ==== Sys2Proof/Laws/PerInstr.lean ====
section
/-! SUPPORT. Facts about every instruction as syntax, one lemma per constructor. The family
`OpcodeRow`: the command word of the encoding is selected by the instruction's row of the operation
table, `CW & mask == match` (R69). -/

namespace Sys2Proof.Laws

open Sys2Proof

def OpcodeRow.Statement (i : Instr) : Prop :=
  (encode i).headD 0 &&& rowMask i = rowMatch i

theorem OpcodeRow.reset : OpcodeRow.Statement .reset := by unfold OpcodeRow.Statement; decide
theorem OpcodeRow.execute (n : Word) : OpcodeRow.Statement (.execute n) := by
  show assembleCw 0x02 0 false &&& 0xffffffff = 0x02000000; decide
theorem OpcodeRow.stateSave : OpcodeRow.Statement .stateSave := by
  unfold OpcodeRow.Statement; decide
theorem OpcodeRow.stateLoad (m : Image) : OpcodeRow.Statement (.stateLoad m) := by
  show assembleCw 0x04 0 false &&& 0xffffffff = 0x04000000; decide
theorem OpcodeRow.msrGet : OpcodeRow.Statement .msrGet := by unfold OpcodeRow.Statement; decide
theorem OpcodeRow.msrSet (v : Word) : OpcodeRow.Statement (.msrSet v) := by
  show assembleCw 0x11 0 false &&& 0xffffffff = 0x11000000; decide
theorem OpcodeRow.enterSupervisor : OpcodeRow.Statement .enterSupervisor := by
  unfold OpcodeRow.Statement; decide
theorem OpcodeRow.restoreFromSupervisor : OpcodeRow.Statement .restoreFromSupervisor := by
  unfold OpcodeRow.Statement; decide
theorem OpcodeRow.regRead (k : Byte) : OpcodeRow.Statement (.regRead k) := by
  show assembleCw 0x14 k false &&& 0xff00ffff = 0x14000000; revert k; decide
theorem OpcodeRow.regWrite (k : Byte) (v : Word) : OpcodeRow.Statement (.regWrite k v) := by
  show assembleCw 0x15 k false &&& 0xff00ffff = 0x15000000; revert k; decide
theorem OpcodeRow.excIrq : OpcodeRow.Statement .excIrq := by unfold OpcodeRow.Statement; decide
theorem OpcodeRow.excDecrementer : OpcodeRow.Statement .excDecrementer := by
  unfold OpcodeRow.Statement; decide
theorem OpcodeRow.excTrap : OpcodeRow.Statement .excTrap := by unfold OpcodeRow.Statement; decide
theorem OpcodeRow.excSyscall : OpcodeRow.Statement .excSyscall := by
  unfold OpcodeRow.Statement; decide
theorem OpcodeRow.excSmi : OpcodeRow.Statement .excSmi := by unfold OpcodeRow.Statement; decide
theorem OpcodeRow.excDsi : OpcodeRow.Statement .excDsi := by unfold OpcodeRow.Statement; decide
theorem OpcodeRow.excIsi : OpcodeRow.Statement .excIsi := by unfold OpcodeRow.Statement; decide
theorem OpcodeRow.setIrqLine (a : Bool) : OpcodeRow.Statement (.setIrqLine a) := by
  show assembleCw 0x30 0 a &&& 0xfffffffe = 0x30000000; revert a; decide
theorem OpcodeRow.setSmiLine (a : Bool) : OpcodeRow.Statement (.setSmiLine a) := by
  show assembleCw 0x31 0 a &&& 0xfffffffe = 0x31000000; revert a; decide
theorem OpcodeRow.check : OpcodeRow.Statement .check := by unfold OpcodeRow.Statement; decide
theorem OpcodeRow.tuArm (n : Word) : OpcodeRow.Statement (.tuArm n) := by
  show assembleCw 0x40 0 false &&& 0xffffffff = 0x40000000; decide
theorem OpcodeRow.tuTick : OpcodeRow.Statement .tuTick := by unfold OpcodeRow.Statement; decide
theorem OpcodeRow.tuCommit : OpcodeRow.Statement .tuCommit := by
  unfold OpcodeRow.Statement; decide

end Sys2Proof.Laws
end

