-- ==== Sys2Proof/Tests/Slice0.lean ====
section
/-! SUPPORT. The model's own tests. Expected values are the spec's: the example of the rule named, or
a vector of spec/95_test_vectors.md. The witnesses at the end show that the hypotheses of each
statement can be met together. -/

namespace Sys2Proof.Tests

open Sys2Proof Sys2Proof.Machine

/-! ### Helpers -/

/-- A variant's state after reset. -/
def base (v : Variant) : State := State.resetWith { Config.defaultParams with variant := v }

/-- The same, asked by an issuer. -/
def asked (v : Variant) (q : Issuer) : State := { base v with issuer := q }

/-- One field of a next state. -/
def look {α : Type} (o : Host.Outcome State Fault Refusal) (f : State → α) : Option α :=
  match o with
  | .next s => some (f s)
  | .fault _ => none
  | .refused _ => none

/-- What an exception entry writes. -/
def saved (s : State) : Word × Word × Word × Word × BitVec 3 :=
  (s.srr0, s.srr1, s.msr, s.npc, s.interruptPending)

/-- The counters. -/
def counters (s : State) : Word × Word × Word := (s.decrementer, s.decFraction, s.timebase)

/-- An invocation in progress: `left` of `granted` units, and the answers of the collaborators. -/
def running (v : Variant) (granted left trigger : Word) (fs : List FetchAnswer)
    (hs : List HandlerAnswer) : State :=
  { base v with
    executing := true, icountStart := granted, budgetRemaining := left, triggerOffset := trigger,
    fetchTape := fs, handlerTape := hs, npc := 0x1000 }

/-- A state of a fatal session. -/
def aborted : State := { base .v603 with fatal := true, fatalKind := 8 }

/-! ### Well-formedness: each check refuses an ill-formed term -/

theorem test_wf_index_read : (Instr.regRead 12).wf = false := by decide
theorem test_wf_index_write : (Instr.regWrite 12 0).wf = false := by decide
theorem test_wf_budget : (Instr.execute 0x7fffffff).wf = false := by decide
theorem test_wf_limits :
    (Instr.regRead 11).wf = true ∧ (Instr.regWrite 11 0).wf = true ∧
      (Instr.execute 0x7ffffffe).wf = true := by decide
theorem test_params_wf : Config.defaultParams.wf ∧
    ¬ Params.wf { Config.defaultParams with busMult := 0 } ∧
    ¬ Params.wf { Config.defaultParams with layout := { Config.layoutStd with le := 6 } } := by decide

/-! ### Decoding: words written out from R67 to R69 -/

theorem test_decode_reset : decode [0x01000000] = .instr .reset := by decide
theorem test_decode_execute : decode [0x02000000, 8] = .instr (.execute 8) := by decide
theorem test_decode_stateSave : decode [0x03000000] = .instr .stateSave := by decide
theorem test_decode_stateLoad : decode [0x04000000, 1, 2, 3, 4, 5, 6, 7, 8, 9, 10, 11] =
    .instr (.stateLoad ⟨1, 2, 3, 4, 5, 6, 7, 8, 9, 10, 11⟩) := by decide
theorem test_decode_msrGet : decode [0x10000000] = .instr .msrGet := by decide
theorem test_decode_msrSet : decode [0x11000000, 0x8040] = .instr (.msrSet 0x8040) := by decide
theorem test_decode_enterSupervisor : decode [0x12000000] = .instr .enterSupervisor := by decide
theorem test_decode_restoreFromSupervisor :
    decode [0x13000000] = .instr .restoreFromSupervisor := by decide
theorem test_decode_regRead : decode [0x140a0000] = .instr (.regRead 10) := by decide
theorem test_decode_regWrite : decode [0x15050000, 3] = .instr (.regWrite 5 3) := by decide
theorem test_decode_excIrq : decode [0x20010000] = .instr .excIrq := by decide
theorem test_decode_excDecrementer : decode [0x20020000] = .instr .excDecrementer := by decide
theorem test_decode_excTrap : decode [0x20030000] = .instr .excTrap := by decide
theorem test_decode_excSyscall : decode [0x20040000] = .instr .excSyscall := by decide
theorem test_decode_excSmi : decode [0x20050000] = .instr .excSmi := by decide
theorem test_decode_excDsi : decode [0x20060000] = .instr .excDsi := by decide
theorem test_decode_excIsi : decode [0x20070000] = .instr .excIsi := by decide
theorem test_decode_setIrqLine : decode [0x30000001] = .instr (.setIrqLine true) := by decide
theorem test_decode_setSmiLine : decode [0x31000000] = .instr (.setSmiLine false) := by decide
theorem test_decode_check : decode [0x32000000] = .instr .check := by decide
theorem test_decode_tuArm : decode [0x40000000, 10] = .instr (.tuArm 10) := by decide
theorem test_decode_tuTick : decode [0x41000000] = .instr .tuTick := by decide
theorem test_decode_tuCommit : decode [0x42000000] = .instr .tuCommit := by decide
/-- R74: `RAISE 0` and `RAISE 8` are unknown kinds. -/
theorem test_decode_unknown :
    decode [0x20000000] = .unknownKind 0 ∧ decode [0x20080000] = .unknownKind 8 := by decide
/-- R73 a, b, c, c, d, g. -/
theorem test_decode_rejects :
    decode [0x05000000] = .rejected (.unknownOp 5) ∧
    decode [0x01000002] = .rejected .reservedBitsSet ∧
    decode [0x01010000] = .rejected .subNotZero ∧
    decode [0x20010001] = .rejected .flagNotZero ∧
    decode [0x140c0000] = .rejected (.badOperand .indexAboveEleven) ∧
    decode [0x02000000, 0x7fffffff] = .rejected (.badOperand .budgetAboveMax) := by decide
/-- Operand words of zeros above the command word. -/
theorem test_tableWord : decodeTableWord 32 0x15050000 = some (.regWrite 5 0) := by decide
/-- R71: the order of the image's words, in the open byte order. -/
theorem test_imageBytes :
    ((base .v603).imageBytes.take 4, (base .v603).imageBytes.drop 40) =
      ([0xff, 0xf0, 0x01, 0x00], [0, 0, 0, 1]) := by decide

/-! ### One operation at a time -/

/-- V5. -/
theorem test_reset : look (exec .reset { base .v603 with msr := 0xb032, npc := 4 })
    (fun s => (s.pc, s.npc, s.msr, s.hid0, s.interruptPending)) =
    some (0xfff00100, 0xfff00100, 0x40, 1, 0) := by decide
/-- R180: the decrementer survives; a latched SMI is lost. -/
theorem test_reset_keeps : look
    (exec .reset { base .v603 with decrementer := 0x1234, interruptPending := 4 })
    (fun s => (s.decrementer, s.interruptPending)) = some (0x1234, 0) := by decide
/-- V4, second row. -/
theorem test_execute : look (exec (.execute 5) { base .v603 with decrementer := 4 })
    (fun s => (s.executing, s.budgetRemaining, s.icountStart, s.triggerOffset)) =
    some (true, 5, 5, 4) := by decide
/-- V4, last row. -/
theorem test_execute_refused : look (exec (.execute 0x7fffffff) (base .v603))
    (fun s => (s.response, s.executing)) = some (.refused, false) := by decide
/-- R182's example. -/
theorem test_stateSave : look (exec .stateSave (base .v603)) State.response =
    some (.done [0xfff00100, 0xfff00100, 0x40, 0, 0, 0, 0, 0, 0, 0, 1]) := by decide
/-- R183's example. -/
theorem test_stateLoad : look
    (exec (.stateLoad ⟨0x100, 0x104, 0x8000, 0, 0, 7, 9, 1, 0xffffffff, 0xffffffff, 0⟩)
      (base .v603))
    (fun s => (s.pc, s.npc, s.msr, counters s, s.interruptPending, s.esaShadow, s.hid0)) =
    some (0x100, 0x104, 0x8000, (7, 1, 9), 7, 15, 0) := by decide
/-- R80's example. -/
theorem test_msrGet : look (exec .msrGet (base .v603)) State.response = some (.done [0x40]) := by
  decide
/-- V1, first row. -/
theorem test_msrSet : look (exec (.msrSet 0x8040) { base .v603 with interruptPending := 1 })
    (fun s => (s.msr, s.interruptPending, s.npc)) = some (0x8040, 1, 0xfff00100) := by decide
/-- R91's example. -/
theorem test_enterSupervisor : look
    (exec .enterSupervisor { asked .v602 .handler with msr := 0xc040 })
    (fun s => (s.esaShadow, s.msr)) = some (0b1001, 0x00400040) := by decide
/-- V5, last row. -/
theorem test_enterSupervisor_603 : look (exec .enterSupervisor (asked .v603 .handler))
    (fun s => (s.response, s.msr)) = some (.refused, 0x40) := by decide
/-- R92's example. -/
theorem test_restoreFromSupervisor : look (exec .restoreFromSupervisor
      { asked .v602 .handler with msr := 0x00400040, esaShadow := 0b1001 })
    (fun s => (s.esaShadow, s.msr)) = some (0b1001, 0xc040) := by decide
/-- S5 as corrected: SA comes back from the shadow. -/
theorem test_restoreFromSupervisor_sa : look (exec .restoreFromSupervisor
      { asked .v602 .handler with msr := 0x00400000, esaShadow := 0b0010 }) State.msr =
    some 0x00400000 := by decide
/-- R184's example. -/
theorem test_regRead : look (exec (.regRead 10) (base .v603)) State.response =
    some (.done [1]) := by decide
/-- R70: zero extension of a narrow element. -/
theorem test_regRead_narrow : look (exec (.regRead 8) { base .v603 with interruptPending := 7 })
    State.response = some (.done [7]) := by decide
/-- R185's example, first half. -/
theorem test_regWrite : look (exec (.regWrite 11 0x00120000) (base .v602)) State.ibr =
    some 0x00120000 := by decide
/-- R73 i: a handler may not write a counter. -/
theorem test_regWrite_closed : look (exec (.regWrite 5 9) (asked .v603 .handler))
    (fun s => (s.response, s.decrementer)) = some (.refused, 0) := by decide
/-- R106's example. -/
theorem test_excIrq : look (exec .excIrq { asked .v603 .seq with
      msr := 0x8040, pc := 0x1000, npc := 0x1004, interruptPending := 7 }) saved =
    some (0x1004, 0x8040, 0x40, 0xfff00500, 6) := by decide
/-- R185's example, second half: the vector from `ibr` on the 602. -/
theorem test_excIrq_602 : look (exec .excIrq { asked .v602 .seq with
      msr := 0x8000, ibr := 0x00120000 }) State.npc = some 0x00120500 := by decide
/-- R107's example. -/
theorem test_excDecrementer : look (exec .excDecrementer { asked .v603 .seq with
      msr := 0x0001b032, pc := 0x2000, npc := 0x2004, interruptPending := 2 }) saved =
    some (0x2004, 0xb032, 0x00011001, 0x900, 0) := by decide
/-- V2, first row. -/
theorem test_excDecrementer_gated : look (exec .excDecrementer { asked .v603 .seq with
      npc := 0x200, interruptPending := 2 }) saved = some (0, 0, 0x40, 0x200, 2) := by decide
/-- R108's example. -/
theorem test_excTrap : look (exec .excTrap { asked .v603 .seq with
      msr := 0x4040, pc := 0x3000, npc := 0x3000 }) saved =
    some (0x3000, 0x24040, 0x40, 0xfff00700, 0) := by decide
/-- V1, third row. -/
theorem test_excTrap_le : look (exec .excTrap { asked .v603 .seq with
      msr := 0x00031001, pc := 0x40, npc := 0x40 }) saved =
    some (0x40, 0x00021001, 0x00031001, 0x700, 0) := by decide
/-- R109's example. -/
theorem test_excSyscall : look (exec .excSyscall { asked .v603 .seq with
      msr := 0xc030, pc := 0x4000, npc := 0x4000 }) saved =
    some (0x4000, 0xc030, 0, 0xc00, 0) := by decide
/-- V1, fourth row. -/
theorem test_excSyscall_pow : look (exec .excSyscall { asked .v603 .seq with
      msr := 0x00040000, pc := 0x40, npc := 0x40 }) saved = some (0x40, 0, 0, 0xc00, 0) := by decide
/-- R110's example. -/
theorem test_excSmi : look (exec .excSmi { asked .v603 .seq with
      msr := 0x8000, pc := 0x5000, npc := 0x5004, interruptPending := 6 }) saved =
    some (0x5004, 0x8000, 0, 0x1400, 2) := by decide
/-- R111's example, with the default parameter. -/
theorem test_excDsi : look (exec .excDsi { asked .v603 .seq with
      msr := 0x8030, pc := 0x6000, npc := 0x6000, interruptPending := 4 }) saved =
    some (0x6000, 0x8030, 0, 0x300, 4) := by decide
/-- R111's example, with `DSI_ISI_CLEARS_SMI`. -/
theorem test_excDsi_clears : look (exec .excDsi { asked .v603 .seq with
      params := { Config.defaultParams with dsiIsiClearsSmi := true },
      interruptPending := 4 }) State.interruptPending = some 0 := by decide
/-- R112's example. -/
theorem test_excIsi : look (exec .excIsi { asked .v603 .seq with
      msr := 0x00010060, pc := 0x7000, npc := 0x7000 }) saved =
    some (0x7000, 0x60, 0x00010041, 0xfff00400, 0) := by decide
/-- S9: kind 7 on the 602. -/
theorem test_excIsi_602 : look (exec .excIsi (asked .v602 .seq))
    (fun s => (s.fatal, s.fatalKind, s.msr, s.npc)) = some (true, 7, 0x40, 0xfff00100) := by decide
/-- R121's example. -/
theorem test_setIrqLine : look (exec (.setIrqLine true) { base .v603 with interruptPending := 4 })
    (fun s => (s.interruptPending, s.notices.length)) = some (5, 1) := by decide
/-- R121's example, the second request. -/
theorem test_setIrqLine_off : look
    (exec (.setIrqLine false) { base .v603 with interruptPending := 5 })
    (fun s => (s.interruptPending, s.notices.length)) = some (5, 0) := by decide
/-- R122's example. -/
theorem test_setSmiLine : look (exec (.setSmiLine true) (base .v603))
    (fun s => (s.interruptPending, s.notices.length)) = some (4, 0) := by decide
/-- R123's example. -/
theorem test_check : look (exec .check { asked .v603 .seq with
      msr := 0x8040, npc := 0x1004, interruptPending := 7 }) saved =
    some (0x1004, 0x8040, 0x40, 0xfff00500, 6) := by decide
/-- S1, the row `0b110`. -/
theorem test_check_decrementer : look (exec .check { asked .v603 .seq with
      msr := 0x8040, interruptPending := 6 }) (fun s => (s.npc, s.interruptPending)) =
    some (0xfff00900, 4) := by decide
/-- R137's example. -/
theorem test_tuArm : look (exec (.tuArm 10) { asked .v603 .seq with decrementer := 5 })
    (fun s => (s.icountStart, s.triggerOffset)) = some (10, 5) := by decide
/-- V4, fourth row: no underflow, so the sentinel. -/
theorem test_tuArm_sentinel : look (exec (.tuArm 9) { asked .v603 .seq with decrementer := 100 })
    State.triggerOffset = some 0x7fffffff := by decide
/-- R140's example, at `k = 5`. -/
theorem test_tuTick : look (exec .tuTick { asked .v603 .seq with
      icountStart := 10, budgetRemaining := 5, triggerOffset := 5 }) State.interruptPending =
    some 2 := by decide
/-- R140's example, at `k = 6`. -/
theorem test_tuTick_after : look (exec .tuTick { asked .v603 .seq with
      icountStart := 10, budgetRemaining := 4, triggerOffset := 5 }) State.interruptPending =
    some 0 := by decide
/-- V4, fourth row: 603 with `BUS_MULT = 4`. -/
theorem test_tuCommit_603 : look (exec .tuCommit { asked .v603 .seq with
      params := { Config.defaultParams with busMult := 4 },
      decrementer := 100, decFraction := 7, icountStart := 9 }) counters =
    some (98, 0, 2) := by decide
/-- V4, third row: the 602 does not touch the fraction. -/
theorem test_tuCommit_602 : look (exec .tuCommit { asked .v602 .seq with
      decrementer := 4, decFraction := 7, timebase := 3, icountStart := 5 }) counters =
    some (2, 7, 4) := by decide

/-! ### One step of the loop -/

/-- R173: a benign no-op. -/
theorem test_iteration : look (step (running .v603 8 8 3 [.word 0] [.resume []]))
    (fun s => (s.pc, s.npc, s.budgetRemaining, s.lastFetch)) =
    some (0x1000, 0x1004, 7, some ⟨0x1000, false⟩) := by decide
/-- R163 and R164: TRAP from a handler. -/
theorem test_iteration_trap : look (step (running .v603 8 8 1 [.word 0] [.raise 3]))
    (fun s => (saved s, s.budgetRemaining)) =
    some ((0x1000, 0x20040, 0x40, 0xfff00700, 0), 8) := by decide
/-- R165: the DECREMENTER bit set at this boundary is taken at this boundary. -/
theorem test_iteration_decrementer : look
    (step { running .v603 8 6 3 [.word 0] [.resume []] with msr := 0x8040 })
    saved = some (0x1004, 0x8040, 0x40, 0xfff00900, 0) := by decide
/-- R205: a return from an exception with an IRQ latched. -/
theorem test_iteration_return : look
    (step { running .v603 8 8 0 [.word 0] [.resume (returnEffects 0x8040 0x300)] with
      interruptPending := 1 }) saved =
    some (0x300, 0x8040, 0x40, 0xfff00500, 0) := by decide
/-- R167 and R143: the exit. -/
theorem test_exit : look (step { running .v603 3 0 0 [] [] with decrementer := 10 })
    (fun s => (counters s, s.response, s.executing)) =
    some ((9, 1, 0), .done [3], false) := by decide
/-- R172: an unknown kind. -/
theorem test_fatal : look (step (running .v603 8 8 0 [.word 0] [.raise 8]))
    (fun s => (s.fatal, s.fatalKind, s.executing, s.npc, s.budgetRemaining)) =
    some (true, 8, false, 0x1000, 8) := by decide
/-- R246: with this `ibr` a TRAP goes to the address an IRQ goes to. -/
theorem test_excTrap_602 :
    (look (exec .excTrap { asked .v602 .seq with msr := 0, ibr := 0x200 }) State.npc,
      look (exec .excIrq { asked .v602 .seq with msr := 0x8000, ibr := 0x200 }) State.npc) =
    (some 0x700, some 0x700) := by decide
/-- R163 with EE = 1: an asynchronous code from a handler is entered, returning to the instruction. -/
theorem test_iteration_async : look
    (step { running .v603 8 8 0 [.word 0] [.raise 5] with msr := 0x8040, interruptPending := 6 })
    saved = some (0x1000, 0x8040, 0x40, 0xfff01400, 2) := by decide
/-- The instruction placed for the next step runs there. -/
theorem test_withFetchWord : look (step (State.reset.withFetchWord 32 0x11000000))
    (fun s => (s.msr, s.response)) = some (0, .done []) := by decide

/-! ### Witnesses: for each statement with hypotheses, values that meet all of them -/

/-- A request of the host that waits alone at the port. -/
def waiting (words : List Word) : State := { base .v603 with port := [⟨.host, words⟩] }

/-- A request of the sequencer that waits alone at the port. -/
def waitingSeq (words : List Word) : State := { base .v603 with port := [⟨.seq, words⟩] }

theorem witness_StepRunsTheDecodedOperation :
    (waiting [0x14020000]).executing = false ∧
    (waiting [0x14020000]).port = ⟨.host, [0x14020000]⟩ :: [] ∧
    decode [0x14020000] = .instr (.regRead 2) := by decide

theorem witness_MalformedRequestsChangeNothing :
    (waiting [0x00000000]).executing = false ∧
    (waiting [0x00000000]).port = ⟨.host, [0x00000000]⟩ :: [] ∧
    decode [0x00000000] = .rejected (.unknownOp 0) := by decide

/-- Both clauses and all forms: the sequencer at the lowest unknown code, the host at the highest, a
handler with DSI on the 602, and a fatal session. -/
theorem witness_UnknownKindRequestIsFatal :
    ((waitingSeq [0x20000000]).executing = false ∧
      (waitingSeq [0x20000000]).port = ⟨.seq, [0x20000000]⟩ :: [] ∧
      decode [0x20000000] = .unknownKind 0 ∧ (waitingSeq [0x20000000]).fatal = false) ∧
    ((base .v602).fatal = false ∧ (base .v602).params.variant = .v602 ∧
      decode [0x20060000] = .instr .excDsi ∧ decode [0x20070000] = .instr .excIsi) ∧
    (aborted.executing = false ∧ aborted.fatal = true) ∧
    ((waiting [0x20ff0000]).executing = false ∧
      (waiting [0x20ff0000]).port = ⟨.host, [0x20ff0000]⟩ :: [] ∧
      decode [0x20ff0000] = .unknownKind 255 ∧ (waiting [0x20ff0000]).fatal = false) := by decide

/-- R74: `RAISE 0` of the host is not refused, nor is `RAISE 6` of a handler of a 602. -/
theorem test_unknown_kind_of_anyone :
    (look (step (waiting [0x20000000])) (fun s => (s.fatal, s.fatalKind)),
      look (step { base .v602 with port := [⟨.handler, [0x20060000]⟩] })
        (fun s => (s.fatal, s.fatalKind))) = (some (true, 0), some (true, 6)) := by decide

theorem witness_DecodeOfEncodeIsTheInstruction :
    (Instr.execute 0x7ffffffe).wf = true ∧ (Instr.regWrite 11 0xffffffff).wf = true := by decide

theorem witness_DecodedWordsAreTheEncoding :
    decode [0x30000001, 7] = .instr (.setIrqLine true) := by decide

/-- One word for each clause: selected by the row of REG_READ, and decoded; then selected and rejected,
for a missing operand and for an index above 11. -/
theorem witness_NoTwoRowsShareAWord :
    (0x140b0000 &&& rowMask (.regRead 0) = rowMatch (.regRead 0) ∧
      0x140b0000 &&& rowMask (.regRead 11) = rowMatch (.regRead 11) ∧
      decode [0x140b0000] = .instr (.regRead 11)) ∧
    (0x02000000 &&& rowMask (.execute 0) = rowMatch (.execute 0) ∧
      decode [0x02000000] = .rejected .operandMissing) ∧
    (0x140c0000 &&& rowMask (.regRead 0) = rowMatch (.regRead 0) ∧
      decode [0x140c0000] = .rejected (.badOperand .indexAboveEleven)) := by decide

/-- One word for each clause, at a boundary of its range. -/
theorem witness_MalformedWordsAreRejected :
    ((0x43000000 : Word).extractLsb' 24 8 = 0x43 ∧ (0x01000002 : Word).extractLsb' 1 15 = 1) ∧
    ((0x01010000 : Word).extractLsb' 16 8 = 1 ∧ (0x01010000 : Word).extractLsb' 24 8 = 1) ∧
    ((0x42000001 : Word).getLsbD 0 = true ∧ (0x42000001 : Word).extractLsb' 24 8 = 0x42) ∧
    (11 < ((0x140c0000 : Word).extractLsb' 16 8).toNat ∧
      (0x140c0000 : Word).extractLsb' 24 8 = 0x14) ∧
    (0x7ffffffe < (([0x7fffffff] : List Word).headD 0).toNat ∧
      (0x02000000 : Word).extractLsb' 24 8 = 0x02) := by decide

/-- One operation for each clause. -/
theorem witness_InadmissibleOperationsChangeNothing :
    ((asked .v603 .host).issuer ∉ issuersOf .check ∧
      (asked .v603 .host).issuer ∉ issuersOf .excDsi ∧
      (asked .v603 .host).params.variant ≠ .v602) ∧
    ((running .v603 1 1 0 [] []).issuer = .host ∧ (running .v603 1 1 0 [] []).executing = true) ∧
    11 < (12 : Byte).toNat ∧ 0x7ffffffe < (0x7fffffff : Word).toNat ∧
    (asked .v603 .handler).params.variant = .v603 ∧ aborted.fatal = true ∧
    (asked .v603 .handler).issuer = .handler ∧ (0 : Byte) ∉ [1#8, 3#8, 4#8, 10#8, 11#8] := by
  decide

/-- The aborted session without a request, and two states that go on. -/
theorem witness_EveryLiveStepGoesOn :
    (aborted.executing = false ∧ aborted.port = [] ∧ aborted.fatal = true) ∧
    ¬ ((base .v603).executing = false ∧ (base .v603).port = [] ∧ (base .v603).fatal = true) := by
  decide

theorem witness_StepKeepsTheStateSound :
    (running .v603 0x7ffffffe 1 0 [.word 0] [.resume []]).sound ∧
    ∃ t, step (running .v603 0x7ffffffe 1 0 [.word 0] [.resume []]) = .next t :=
  ⟨by decide, _, rfl⟩

theorem witness_SentinelIsNeverReached :
    (running .v603 0x7ffffffe 0 0x7fffffff [] []).sound ∧
    (running .v603 0x7ffffffe 0 0x7fffffff [] []).executing = true := by decide

/-- The host, for the statements of RESET, EXECUTE, STATE_SAVE, STATE_LOAD and REG_WRITE. -/
theorem witness_host_operations :
    (base .v603).asHost ∧ (base .v602).asHost ∧ (0x7ffffffe : Word).toNat ≤ 0x7ffffffe ∧
    (aborted.issuer = .host ∧ aborted.executing = false) := by decide

theorem witness_SavedImageLoadsBack :
    ∃ u ws, (base .v602).issuer = .host ∧ (base .v602).executing = false ∧ (base .v603).asHost ∧
      exec .stateSave (base .v602) = .next u ∧ u.response = .done ws :=
  ⟨_, _, rfl, rfl, by decide, rfl, rfl⟩

/-- The host between invocations and a handler, for REG_READ, MSR_GET, MSR_SET and the lines. -/
theorem witness_either_issuer :
    ((base .v603).issuer ≠ .seq ∧ (base .v603).hostWaits ∧ (base .v603).fatal = false) ∧
    ((asked .v602 .handler).issuer ≠ .seq ∧ (asked .v602 .handler).hostWaits) ∧
    ((asked .v602 .seq).hostWaits ∧ (asked .v602 .handler).asHandler) := by decide

/-- For the three statements of the shadow. -/
theorem witness_shadow :
    (asked .v602 .handler).asHandler ∧ (asked .v602 .handler).params.variant = .v602 ∧
    (asked .v602 .handler).params.layout.wf := by decide

/-- Both sides of the gate, on both variants, for the dispatches, CHECK and the timing unit. -/
theorem witness_sequencer :
    ((asked .v603 .seq).asSeq ∧ (asked .v603 .seq).msrF .ee = false) ∧
    (State.asSeq { asked .v602 .seq with msr := 0x8000 } ∧
      State.msrF { asked .v602 .seq with msr := 0x8000 } .ee = true) ∧
    (asked .v603 .seq).params.variant = .v603 ∧ (asked .v602 .seq).params.variant = .v602 ∧
    (asked .v603 .seq).params.layout.wf := by decide

/-- For the statements about an entry: a synchronous kind at EE = 0, an asynchronous one at EE = 1. -/
theorem witness_entry :
    (base .v603).params.layout.wf ∧ (base .v603).gatedOff .trap = false ∧
    State.gatedOff { base .v603 with msr := 0x8000 } .smi = false ∧ kindAsync .irq = true ∧
    kindAsync .isi = false := by decide

/-- One state for each clause: both fixed bases, a clean `ibr`, and R246's `ibr`. -/
theorem witness_VectorOrAgainstSum :
    ((base .v602).gatedOff .trap = false ∧ (base .v602).msrF .ip = true) ∧
    (State.gatedOff { base .v603 with msr := 0 } .dsi = false ∧
      State.msrF { base .v603 with msr := 0 } .ip = false) ∧
    (State.gatedOff { base .v602 with msr := 0x8000, ibr := 0x00120000 } .smi = false ∧
      State.msrF { base .v602 with msr := 0x8000, ibr := 0x00120000 } .ip = false ∧
      (0x00120000 : Word) &&& 0x1400 = 0) ∧
    (State.gatedOff { base .v602 with msr := 0x8000, ibr := 0x00000200 } .trap = false ∧
      State.gatedOff { base .v602 with msr := 0x8000, ibr := 0x00000200 } .irq = false ∧
      State.msrF { base .v602 with msr := 0x8000, ibr := 0x00000200 } .ip = false ∧
      (0x00000200 : Word) &&& 0x700 ≠ 0) := by decide

theorem witness_SecondCheckDoesNothing :
    ∃ t, State.asSeq { asked .v603 .seq with msr := 0x8000, interruptPending := 7 } ∧
      (asked .v603 .seq).params.layout.wf ∧
      exec .check { asked .v603 .seq with msr := 0x8000, interruptPending := 7 } = .next t :=
  ⟨_, by decide, by decide, rfl⟩

theorem witness_CarriedFractionLosesNoTick :
    (base .v603).params.wf ∧ (base .v603).params.variant = .v603 := by decide

theorem witness_IterationFrame :
    (running .v603 1 1 0 [.word 0] [.resume []]).executing = true ∧
    (running .v603 1 1 0 [.word 0] [.resume []]).budgetRemaining ≠ 0 ∧
    ∃ t, step (running .v603 1 1 0 [.word 0] [.resume []]) = .next t :=
  ⟨by decide, by decide, _, rfl⟩

theorem witness_HandlerEffectsLeaveClosedStateAlone : (base .v603).params.variant = .v603 := by
  decide

/-- A handler of a 602 that raises the SMI line, enters supervisor mode and restores. -/
def shadowing : State :=
  { running .v602 8 8 0 [.word 0]
      [.resume [.setSmiLine true, .enterSupervisor, .restoreFromSupervisor]] with msr := 0x8040 }

/-- R176 and R93: a line call made as an effect is acted on at the boundary of its instruction, with the
`msr` that the effects leave. -/
theorem test_iteration_effects : look (step shadowing) (fun s => (saved s, s.esaShadow)) =
    some ((0x1004, 0x8040, 0x40, 0xfff01400, 0), 0b0001) := by decide

/-- Both variants live, an iteration with effects, and one refused effect for each of its clauses. -/
theorem witness_RefusedEffectsAreSkipped :
    (shadowing.fatal = false ∧ shadowing.params.variant = .v602 ∧ shadowing.executing = true ∧
      shadowing.budgetRemaining ≠ 0 ∧ shadowing.fetchTape = .word 0 :: [] ∧
      shadowing.handlerTape =
        .resume [.setSmiLine true, .enterSupervisor, .restoreFromSupervisor] :: []) ∧
    (Instr.enterSupervisor = .enterSupervisor ∧ (base .v603).params.variant = .v603) ∧
    (∃ k v, Instr.regWrite 9 0 = .regWrite k v ∧ k ∉ [1#8, 3#8, 4#8, 10#8, 11#8]) ∧
    (Instr.regRead 12).wf = false ∧ Issuer.handler ∉ issuersOf .tuTick :=
  ⟨by decide, by decide, ⟨_, _, rfl, by decide⟩, by decide, by decide⟩

theorem witness_PlainInstructionRetires :
    (running .v603 2 1 2 [.word 0] [.resume []]).executing = true ∧
    (running .v603 2 1 2 [.word 0] [.resume []]).budgetRemaining ≠ 0 ∧
    (running .v603 2 1 2 [.word 0] [.resume []]).fetchTape = .word 0 :: [] ∧
    (running .v603 2 1 2 [.word 0] [.resume []]).handlerTape = .resume [] :: [] := by decide

/-- Both clauses: from the handler, and from the fetch. -/
theorem witness_SynchronousRaiseAborts :
    (running .v603 1 1 0 [.word 0] [.raise 3]).executing = true ∧
    (running .v603 1 1 0 [.word 0] [.raise 3]).budgetRemaining ≠ 0 ∧
    kindOfCode (running .v603 1 1 0 [.word 0] [.raise 3]).params.variant 3 = some .trap ∧
    kindAsync .trap = false ∧
    (running .v603 1 1 0 [.word 0] [.raise 3]).fetchTape = .word 0 :: [] ∧
    (running .v603 1 1 0 [.word 0] [.raise 3]).handlerTape = .raise 3 :: [] ∧
    kindOfCode (running .v603 1 1 0 [.raise 7] []).params.variant 7 = some .isi ∧
    kindAsync .isi = false ∧
    (running .v603 1 1 0 [.raise 7] []).fetchTape = .raise 7 :: [] := by decide

/-- An invocation in which an asynchronous code is raised, by the handler or by the fetch. -/
def raising (m : Word) (byFetch : Bool) : State :=
  { running .v603 1 1 0 (if byFetch then [.raise 5] else [.word 0]) [.raise 5] with msr := m }

/-- All four clauses: EE clear and set, raised by the handler and by the fetch. -/
theorem witness_GatedRaiseRetriesTheInstruction :
    kindOfCode .v603 5 = some .smi ∧ kindAsync .smi = true ∧
    (∀ b, (raising 0x40 b).executing = true ∧ (raising 0x40 b).budgetRemaining ≠ 0 ∧
      (raising 0x40 b).params.variant = .v603 ∧ (raising 0x40 b).msrF .ee = false) ∧
    (∀ b, (raising 0x8040 b).executing = true ∧ (raising 0x8040 b).budgetRemaining ≠ 0 ∧
      (raising 0x8040 b).params.variant = .v603 ∧ (raising 0x8040 b).msrF .ee = true) ∧
    ∀ m, (raising m false).fetchTape = .word 0 :: [] ∧
      (raising m false).handlerTape = .raise 5 :: [] ∧ (raising m true).fetchTape = .raise 5 :: [] :=
  ⟨by decide, by decide, by decide, by decide, fun _ => ⟨rfl, rfl, rfl⟩⟩

/-- Both clauses: from the handler, and from the fetch. -/
theorem witness_UnknownRaiseStopsTheInvocation :
    ((running .v602 1 1 0 [.word 0] [.raise 6]).executing = true ∧
      (running .v602 1 1 0 [.word 0] [.raise 6]).budgetRemaining ≠ 0 ∧
      kindOfCode (running .v602 1 1 0 [.word 0] [.raise 6]).params.variant 6 = none ∧
      (running .v602 1 1 0 [.word 0] [.raise 6]).fetchTape = .word 0 :: [] ∧
      (running .v602 1 1 0 [.word 0] [.raise 6]).handlerTape = .raise 6 :: []) ∧
    ((running .v603 1 1 0 [.raise 255] []).executing = true ∧
      (running .v603 1 1 0 [.raise 255] []).budgetRemaining ≠ 0 ∧
      kindOfCode (running .v603 1 1 0 [.raise 255] []).params.variant 255 = none ∧
      (running .v603 1 1 0 [.raise 255] []).fetchTape = .raise 255 :: []) := by decide

/-- An invocation with interrupts enabled, one unit before its trigger. -/
def armed : State := { running .v603 8 6 3 [.word 0] [.resume []] with msr := 0x8040 }

theorem witness_DecrementerTakenAtItsBoundary :
    armed.executing = true ∧ armed.budgetRemaining ≠ 0 ∧ armed.fetchTape = .word 0 :: [] ∧
    armed.handlerTape = .resume [] :: [] ∧ armed.msrF .ee = true ∧
    armed.interruptPending.getLsbD 0 = false ∧
    armed.icountStart - (armed.budgetRemaining - 1) = armed.triggerOffset := by decide

/-- An invocation with an IRQ latched, whose next instruction returns from an exception. -/
def returning : State :=
  { running .v603 8 8 0 [.word 0] [.resume (returnEffects 0x8040 0x300)] with
    interruptPending := 1 }

/-- All clauses: EE of the new `msr` set and clear; a request latched before, none latched, and one
latched only by the trigger (`k = 1`). -/
theorem witness_ReturnFromException :
    (∀ p, State.executing { returning with interruptPending := p } = true) ∧
    returning.fatal = false ∧ returning.budgetRemaining ≠ 0 ∧
    returning.fetchTape = .word 0 :: [] ∧
    returning.handlerTape = .resume [.msrSet 0x8040, .regWrite 1 0x300] :: [] ∧
    msrBit returning.params.layout 0x8040 .ee = true ∧
    msrBit returning.params.layout 0x0040 .ee = false ∧
    returning.icountStart - (returning.budgetRemaining - 1) ≠ returning.triggerOffset ∧
    returning.interruptPending ≠ 0 ∧ (base .v603).interruptPending = 0 ∧
    returning.icountStart - (returning.budgetRemaining - 1) = 1 := by decide

/-- A step that takes bit `j` away from a latch in which it was set. -/
abbrev loses (s : State) (j : Fin 3) : Prop :=
  ∃ t, s.params.layout.wf ∧ s.executing = true ∧ step s = .next t ∧
    s.interruptPending.getLsbD j.val = true ∧ t.interruptPending.getLsbD j.val = false

/-- An IRQ, a DECREMENTER and an SMI lost by their entries, and an SMI lost by an ISI. -/
theorem witness_LatchedIrqIsOnlyLostByItsEntry :
    loses returning 0 ∧ loses { returning with interruptPending := 6 } 1 ∧
    loses { returning with interruptPending := 4 } 2 ∧
    loses { running .v603 8 8 0 [.raise 7] [] with
      params := { Config.defaultParams with dsiIsiClearsSmi := true }, interruptPending := 4 } 2 :=
  ⟨⟨_, by decide, rfl, rfl, rfl, by decide⟩, ⟨_, by decide, rfl, rfl, rfl, by decide⟩,
    ⟨_, by decide, rfl, rfl, rfl, by decide⟩, ⟨_, by decide, rfl, rfl, rfl, by decide⟩⟩

theorem witness_ExitCommitsAndAnswers :
    (running .v602 3 0 0 [] []).executing = true ∧
    (running .v602 3 0 0 [] []).budgetRemaining = 0 ∧
    (running .v602 3 0 0 [] []).params.variant = .v602 ∧
    (running .v603 3 0 0 [] []).params.variant = .v603 := by decide

/-- Two units left and the trigger at the last of them. -/
theorem witness_QuietInvocationRunsToItsEnd :
    (running .v603 8 2 8 [.word 0, .word 1] [.resume [], .resume []]).sound ∧
    (running .v603 8 2 8 [.word 0, .word 1] [.resume [], .resume []]).executing = true ∧
    (running .v603 8 2 8 [.word 0, .word 1] [.resume [], .resume []]).msrF .ee = false ∧
    (running .v603 8 2 8 [.word 0, .word 1] [.resume [], .resume []]).budgetRemaining.toNat = 2 ∧
    ([0, 1] : List Word).length = 2 ∧
    (running .v603 8 2 8 [.word 0, .word 1] [.resume [], .resume []]).fetchTape =
      ([0, 1] : List Word).map .word ++ [] ∧
    (running .v603 8 2 8 [.word 0, .word 1] [.resume [], .resume []]).handlerTape =
      List.replicate 2 (.resume []) ++ [] := by decide

theorem witness_FatalSessionIsFrozen :
    State.fatal { aborted with port := [⟨.host, [0x01000000]⟩] } = true ∧
    State.executing { aborted with port := [⟨.host, [0x01000000]⟩] } = false ∧
    ∃ t, step { aborted with port := [⟨.host, [0x01000000]⟩] } = .next t :=
  ⟨by decide, by decide, _, rfl⟩

/-- At the port, and in an invocation. -/
theorem witness_OnlyAnUnknownKindIsFatal :
    (∃ t, step (waitingSeq [0x20000000]) = .next t ∧ (waitingSeq [0x20000000]).fatal = false ∧
      t.fatal = true) ∧
    (∃ t, step (running .v603 1 1 0 [.raise 255] []) = .next t ∧
      (running .v603 1 1 0 [.raise 255] []).fatal = false ∧ t.fatal = true) :=
  ⟨⟨_, rfl, by decide, by decide⟩, ⟨_, rfl, by decide, by decide⟩⟩

end Sys2Proof.Tests
end

section
/-! PROOFS. The family of the state: what a step can be (O12), the fatal session (O59), what the
effects of a handler leave alone (O48), and the invariant of the machine (O13). -/

namespace Sys2Proof.Machine

open Sys2Proof

/-! ### One request of the port -/

/-- Everything one request can lead to: it is refused; it asks for an unknown kind in a live session
(R74); or it is an operation that R73 admits. -/
theorem serveRequest_cases (s : State) (r : Request) :
    s.serveRequest r = .next (State.refuse { s with issuer := r.issuer }) ∨
      (∃ k, s.fatal = false ∧
        s.serveRequest r = .next (State.raiseAnswered { s with issuer := r.issuer } k)) ∨
      (∃ i, State.denial { s with issuer := r.issuer } i = none ∧
        s.serveRequest r = .next (effectOf i { s with issuer := r.issuer })) := by
  unfold State.serveRequest
  cases decode r.words with
  | rejected e => exact .inl rfl
  | unknownKind k =>
    cases s.fatal with
    | true => exact .inl (by simp [State.serveUnknownKind])
    | false => exact .inr (.inl ⟨k, rfl, by simp [State.serveUnknownKind]⟩)
  | instr i =>
    cases hd : State.denial { s with issuer := r.issuer } i with
    | some d => exact .inl (exec_denied hd)
    | none => exact .inr (.inr ⟨i, hd, exec_admitted hd⟩)

/-- Everything a step can do between invocations: wait; or serve the oldest request, in one of the
three ways of `serveRequest_cases`. -/
theorem step_idle_cases {s t : State} (hx : s.executing = false) (h : step s = .next t) :
    (s.fatal = false ∧ t = s) ∨
      ∃ q rest, (t = State.refuse { s with port := rest, issuer := q }) ∨
        (∃ k, s.fatal = false ∧ t = State.raiseAnswered { s with port := rest, issuer := q } k) ∨
        (∃ i, State.denial { s with port := rest, issuer := q } i = none ∧
          t = effectOf i { s with port := rest, issuer := q }) := by
  rw [step_idle hx, State.servePort] at h
  split at h
  case h_1 r rest _ =>
    refine .inr ⟨r.issuer, rest, ?_⟩
    rcases serveRequest_cases { s with port := rest } r with e | ⟨k, hf, e⟩ | ⟨i, hd, e⟩ <;>
      cases e.symm.trans h
    · exact .inl rfl
    · exact .inr (.inl ⟨k, hf, rfl⟩)
    · exact .inr (.inr ⟨i, hd, rfl⟩)
  case h_2 =>
    cases hf : s.fatal with
    | true => simp [hf] at h
    | false => exact .inl ⟨rfl, by simpa [hf] using h.symm⟩

/-- Settles O12: an iteration and a request always answer a next state, so only the port without a
request is left, where the flag `fatal` decides. -/
theorem everyLiveStepGoesOn : Obligations.EveryLiveStepGoesOn := by
  intro s
  refine ⟨fun ⟨hx, hp, hf⟩ => by simp [step_idle hx, State.servePort, hp, hf], fun hlive => ?_⟩
  cases hx : s.executing with
  | true => exact ⟨_, step_executing hx⟩
  | false =>
    rw [step_idle hx, State.servePort]
    cases hp : s.port with
    | nil =>
      have hf : s.fatal = false := by simpa [hx, hp] using hlive
      exact ⟨s, by simp [hf]⟩
    | cons r rest =>
      rcases serveRequest_cases { s with port := rest } r with e | ⟨k, -, e⟩ | ⟨i, -, e⟩ <;>
        exact ⟨_, e⟩

/-! ### The fatal session -/

/-- What a fatal session still admits is one of the three operations of R30. -/
theorem admittedWhenFatal_of_denial {s : State} {i : Instr} (hd : s.denial i = none)
    (hf : s.fatal = true) : admittedWhenFatal i = true := by
  cases hu : s.asksUnknownKind i with
  | true => exact absurd ((denial_unknown hu).1 hd) (by simp [hf])
  | false =>
    obtain ⟨-, -, -, hadm, -, -⟩ := (denial_eq_none_iff hu).1 hd
    exact hadm hf

/-- Those three operations only answer. -/
theorem effectOf_of_admittedWhenFatal {i : Instr} (h : admittedWhenFatal i = true) (s : State) :
    effectOf i s = { s with response := (effectOf i s).response } := by
  cases i
  case regRead k => simp only [effectOf]; cases regOfIndex k <;> rfl
  case msrGet => rfl
  case stateSave => rfl
  all_goals exact absurd h (by simp [admittedWhenFatal])

/-- Settles O59: in a fatal session a request is refused, or is one of the operations that only
answer. -/
theorem fatalSessionIsFrozen : Obligations.FatalSessionIsFrozen := by
  intro s t hf hx h
  rcases step_idle_cases hx h with ⟨hl, -⟩ | ⟨q, rest, rfl | ⟨k, hl, -⟩ | ⟨i, hd, rfl⟩⟩
  · exact absurd hl (by simp [hf])
  · rfl
  · exact absurd hl (by simp [hf])
  · have e := effectOf_of_admittedWhenFatal (admittedWhenFatal_of_denial hd hf)
      { s with port := rest, issuer := q }
    rw [e]

/-! ### What is closed to a handler -/

/-- `s`, with the elements that an effect of a handler may change taken from `t`: the registers open
to REG_WRITE, and what MSR_SET, the shadow operations and the line operations write (R170). -/
def State.withOpenOf (s t : State) : State :=
  { s with
    npc := t.npc
    msr := t.msr
    srr0 := t.srr0
    srr1 := t.srr1
    esaShadow := t.esaShadow
    interruptPending := t.interruptPending
    ibr := t.ibr
    hid0 := t.hid0
    notices := t.notices }

/-- How far effects of a handler can take `s` to `t`: only open elements change, the latch gains
bits but never the DECREMENTER bit (R147), and the 603 keeps its shadow (R34). -/
structure HandlerFrame (s t : State) : Prop where
  closed : t = s.withOpenOf t
  decrementerBit : t.interruptPending.getLsbD 1 = s.interruptPending.getLsbD 1
  latchGains : ∀ k, s.interruptPending.getLsbD k = true → t.interruptPending.getLsbD k = true
  shadow603 : s.params.variant = .v603 → t.esaShadow = s.esaShadow

namespace HandlerFrame

/-- Changes of open elements other than the latch and the shadow. -/
theorem of_latch_eq {s t : State} (hc : t = s.withOpenOf t)
    (hl : t.interruptPending = s.interruptPending)
    (hs : s.params.variant = .v603 → t.esaShadow = s.esaShadow) : HandlerFrame s t :=
  ⟨hc, by rw [hl], fun _ hk => by rw [hl]; exact hk, hs⟩

theorem refl (s : State) : HandlerFrame s s := of_latch_eq rfl rfl fun _ => rfl

/-- What the frame equation says of one element `f` that is closed to a handler. -/
theorem keeps {α : Type} {s t : State} (h : HandlerFrame s t) (f : State → α)
    (hf : f (s.withOpenOf t) = f s) : f t = f s :=
  (congrArg f h.closed).trans hf

theorem trans {s t u : State} (hst : HandlerFrame s t) (htu : HandlerFrame t u) :
    HandlerFrame s u where
  closed := calc
    u = t.withOpenOf u := htu.closed
    _ = (s.withOpenOf t).withOpenOf u := congrArg (State.withOpenOf · u) hst.closed
    _ = s.withOpenOf u := rfl
  decrementerBit := htu.decrementerBit.trans hst.decrementerBit
  latchGains k hk := htu.latchGains k (hst.latchGains k hk)
  shadow603 hv := by
    have hvt : t.params.variant = .v603 := by rw [hst.keeps State.params rfl, hv]
    rw [htu.shadow603 hvt, hst.shadow603 hv]

/-- A latch bit other than DECREMENTER is set. -/
theorem setPending (s : State) {p : BitVec 3} (hp : p.getLsbD 1 = false) :
    HandlerFrame s { s with interruptPending := s.interruptPending ||| p } where
  closed := rfl
  decrementerBit := by simp only [BitVec.getLsbD_or, hp, Bool.or_false]
  latchGains k hk := by simp only [BitVec.getLsbD_or, hk, Bool.true_or]
  shadow603 _ := rfl

theorem notify (s : State) : HandlerFrame s s.notify := by
  rcases notify_cases s with e | e <;> rw [e]
  · exact refl s
  · exact of_latch_eq rfl rfl fun _ => rfl

theorem irqLine (s : State) (a : Bool) : HandlerFrame s (s.irqLine a) := by
  cases a with
  | false => exact refl s
  | true => exact (setPending s (p := pendIrq) rfl).trans (notify _)

theorem smiLine (s : State) (a : Bool) : HandlerFrame s (s.smiLine a) := by
  cases a with
  | false => exact refl s
  | true => exact setPending s (p := pendSmi) rfl

theorem writeReg (s : State) (v : Word) {r : Reg} (h : handlerMayWrite r = true) :
    HandlerFrame s (s.writeReg r v) := by
  cases r
  case npc | srr0 | srr1 | hid0 | ibr => exact of_latch_eq rfl rfl fun _ => rfl
  all_goals exact absurd h (by decide)

/-- One effect. -/
theorem applyEffect (s : State) (e : Instr) : HandlerFrame s (s.applyEffect e) := by
  rcases applyEffect_cases s e with h | ⟨v, -, -, h⟩ | ⟨-, -, hv, h⟩ | ⟨-, -, -, h⟩ |
    ⟨k, v, r, -, -, -, hr, h⟩ | ⟨-, -, h⟩ | ⟨-, -, h⟩ <;> rw [h]
  · exact refl s
  · exact of_latch_eq rfl rfl fun _ => rfl
  · exact of_latch_eq rfl rfl fun h603 => absurd (hv.symm.trans h603) (by decide)
  · exact of_latch_eq rfl rfl fun _ => rfl
  · exact writeReg s v hr
  · exact irqLine s true
  · exact smiLine s true

/-- Any list of effects. -/
theorem applyEffects (es : List Instr) (s : State) : HandlerFrame s (s.applyEffects es) :=
  applyEffects_induct (fun t e ht => ht.trans (applyEffect t e)) es s (refl s)

end HandlerFrame

/-- Settles O48: each conjunct is a field of `HandlerFrame`, or one closed element of its frame
equation. -/
theorem handlerEffectsLeaveClosedStateAlone : Obligations.HandlerEffectsLeaveClosedStateAlone := by
  intro es s
  have h := HandlerFrame.applyEffects es s
  exact ⟨h.keeps State.pc rfl, h.keeps State.decrementer rfl, h.keeps State.timebase rfl,
    h.keeps State.decFraction rfl, h.keeps State.budgetRemaining rfl,
    h.keeps State.icountStart rfl, h.keeps State.triggerOffset rfl, h.keeps State.fatal rfl,
    h.keeps State.fatalKind rfl, h.keeps State.executing rfl, h.keeps State.response rfl,
    h.keeps State.issuer rfl, h.keeps State.params rfl, h.keeps State.port rfl,
    h.decrementerBit, h.latchGains, h.shadow603⟩

/-! ### The invariant -/

/-- `s` and `t` agree on everything `State.sound` speaks of. -/
structure SameControl (s t : State) : Prop where
  params : t.params = s.params
  executing : t.executing = s.executing
  fatal : t.fatal = s.fatal
  budgetRemaining : t.budgetRemaining = s.budgetRemaining
  icountStart : t.icountStart = s.icountStart

theorem SameControl.sound {s t : State} (h : SameControl s t) (hs : s.sound) : t.sound := by
  unfold State.sound State.budgetSound State.fatalSound
  rw [h.params, h.executing, h.fatal, h.budgetRemaining, h.icountStart]
  exact hs

theorem HandlerFrame.sameControl {s t : State} (h : HandlerFrame s t) : SameControl s t :=
  ⟨h.keeps State.params rfl, h.keeps State.executing rfl, h.keeps State.fatal rfl,
    h.keeps State.budgetRemaining rfl, h.keeps State.icountStart rfl⟩

theorem sameControl_dispatch (s : State) (K : ExcKind) : SameControl s (s.dispatch K) := by
  rcases dispatch_cases s K with ⟨-, e⟩ | ⟨-, e⟩ <;> rw [e] <;> exact ⟨rfl, rfl, rfl, rfl, rfl⟩

theorem sameControl_checkPending (s : State) : SameControl s s.checkPending := by
  rcases checkPending_cases s with e | ⟨K, -, -, e, -⟩ <;> rw [e] <;>
    exact ⟨rfl, rfl, rfl, rfl, rfl⟩

theorem sameControl_tick (s : State) : SameControl s s.tick := by
  rcases tick_cases s with ⟨-, e⟩ | ⟨-, e⟩ <;> rw [e] <;> exact ⟨rfl, rfl, rfl, rfl, rfl⟩

theorem sameControl_commit (s : State) : SameControl s s.commit := by
  unfold State.commit
  cases s.params.variant <;> exact ⟨rfl, rfl, rfl, rfl, rfl⟩

theorem sameControl_writeReg (s : State) (r : Reg) (v : Word) :
    SameControl s (s.writeReg r v) := by
  cases r <;> exact ⟨rfl, rfl, rfl, rfl, rfl⟩

/-- No invocation is in progress in `t`, and the parameters are those of `s`. -/
structure IdleAfter (s t : State) : Prop where
  params : t.params = s.params
  executing : t.executing = false

/-- Without an invocation only the parameters matter: the other clauses ask nothing, or hold. -/
theorem IdleAfter.sound {s t : State} (h : IdleAfter s t) (hp : s.params.wf) : t.sound :=
  ⟨h.params.symm ▸ hp, fun hx => absurd hx (by simp [h.executing]), fun _ => h.executing⟩

theorem SameControl.answer_idleAfter {s t : State} (h : SameControl s t)
    (hx : s.executing = false) (ws : List Word) : IdleAfter s (t.answer ws) :=
  ⟨h.params, h.executing.trans hx⟩

theorem raiseAnswered_idleAfter {s : State} (hx : s.executing = false) (k : Byte) :
    IdleAfter s (s.raiseAnswered k) := by
  rcases raiseAnswered_cases s k with ⟨K, -, e⟩ | ⟨-, e⟩ <;> rw [e]
  · exact (sameControl_dispatch s K).answer_idleAfter hx []
  · exact ⟨rfl, rfl⟩

/-- Only EXECUTE begins an invocation (R155). -/
theorem effectOf_idleAfter {s : State} (hx : s.executing = false) {i : Instr}
    (hi : ∀ n, i ≠ .execute n) : IdleAfter s (effectOf i s) := by
  cases i
  case execute n => exact absurd rfl (hi n)
  case reset | stateSave | stateLoad | msrGet | msrSet | enterSupervisor | restoreFromSupervisor |
      tuArm => exact ⟨rfl, hx⟩
  case regRead k => simp only [effectOf]; cases regOfIndex k <;> exact ⟨rfl, hx⟩
  case regWrite k v =>
    simp only [effectOf]
    cases regOfIndex k with
    | none => exact ⟨rfl, hx⟩
    | some r => exact (sameControl_writeReg s r v).answer_idleAfter hx []
  case excIrq | excDecrementer | excTrap | excSyscall | excSmi | excDsi | excIsi =>
    simp only [effectOf]; exact raiseAnswered_idleAfter hx _
  case setIrqLine a => exact (HandlerFrame.irqLine s a).sameControl.answer_idleAfter hx []
  case setSmiLine a => exact (HandlerFrame.smiLine s a).sameControl.answer_idleAfter hx []
  case check => exact (sameControl_checkPending s).answer_idleAfter hx []
  case tuTick => exact (sameControl_tick s).answer_idleAfter hx []
  case tuCommit => exact (sameControl_commit s).answer_idleAfter hx []

/-- EXECUTE is admitted only with a budget in range and in a live session (R73 g, h). -/
theorem execute_admitted {s : State} {n : Word} (hd : s.denial (.execute n) = none) :
    n.toNat ≤ Config.budgetMax.toNat ∧ s.fatal = false := by
  obtain ⟨hwf, -, -, hadm, -, -⟩ := (denial_eq_none_iff (i := .execute n) rfl).1 hd
  constructor
  · by_contra hn
    exact absurd hwf (by simp [Instr.wf, Instr.defect, Nat.lt_of_not_le hn])
  · cases hf : s.fatal with
    | false => rfl
    | true => exact absurd (hadm hf) (by simp [admittedWhenFatal])

/-- EXECUTE begins with the whole budget left (R156). -/
theorem beginInvocation_sound {s : State} {n : Word} (hp : s.params.wf)
    (hn : n.toNat ≤ Config.budgetMax.toNat) (hf : s.fatal = false) :
    (s.beginInvocation n).sound :=
  ⟨hp, fun _ => ⟨Nat.le_refl n.toNat, hn⟩, fun h => absurd (hf.symm.trans h) (by decide)⟩

theorem effectOf_sound {s : State} {i : Instr} (hp : s.params.wf) (hx : s.executing = false)
    (hd : s.denial i = none) : (effectOf i s).sound := by
  by_cases hi : ∃ n, i = .execute n
  · obtain ⟨n, rfl⟩ := hi
    obtain ⟨hn, hf⟩ := execute_admitted hd
    exact beginInvocation_sound hp hn hf
  · exact (effectOf_idleAfter hx fun n e => hi ⟨n, e⟩).sound hp

/-- The escape keeps the invocation as it is, or ends it (R163, R172). -/
theorem escape_sound {s : State} (hs : s.sound) (k : Byte) : (s.escape k).sound := by
  unfold State.escape
  rcases raise_cases { s with npc := s.pc } k with ⟨K, -, e⟩ | ⟨-, e⟩ <;>
    rw [e]
  · exact (sameControl_dispatch _ K).sound hs
  · obtain ⟨hp, -, -⟩ := hs
    exact IdleAfter.sound (s := s) ⟨rfl, rfl⟩ hp

/-- The end of an instruction spends one unit of a budget that is not used up (R162). -/
theorem retire_sound {s : State} (hs : s.sound) (hb : s.budgetRemaining ≠ 0) :
    s.retire.sound := by
  obtain ⟨hp, hbudget, hf⟩ := hs
  have spent : State.sound { s with budgetRemaining := s.budgetRemaining - 1 } := by
    refine ⟨hp, fun hx => ?_, hf⟩
    obtain ⟨hle, hmax⟩ := hbudget hx
    have hlt : (s.budgetRemaining - 1).toNat ≤ s.budgetRemaining.toNat := by bv_omega
    exact ⟨hlt.trans hle, hmax⟩
  exact (sameControl_checkPending _).sound ((sameControl_tick _).sound spent)

/-- A handler that answers leaves the budget to the end of its instruction. -/
theorem applyEffects_retire_sound {s : State} (hs : s.sound) (hb : s.budgetRemaining ≠ 0)
    (es : List Instr) : (s.applyEffects es).retire.sound := by
  have h := (HandlerFrame.applyEffects es s).sameControl
  exact retire_sound (h.sound hs) (h.budgetRemaining ▸ hb)

theorem iterate_sound {s : State} (hs : s.sound) (hb : s.budgetRemaining ≠ 0) :
    s.iterate.sound := by
  rcases iterate_cases s with ⟨k, tape, e⟩ | ⟨w, k, tape, tape', e⟩ | ⟨w, es, tape, tape', e⟩ <;>
    rw [e]
  · apply escape_sound; exact hs
  · apply escape_sound; exact hs
  · apply applyEffects_retire_sound <;> assumption

theorem advance_sound {s : State} (hs : s.sound) : s.advance.sound := by
  unfold State.advance
  by_cases hb : s.budgetRemaining = 0
  · have h : IdleAfter s s.endInvocation := ⟨(sameControl_commit s).params, rfl⟩
    simpa only [hb, if_true] using h.sound hs.1
  · simpa only [hb, if_false] using iterate_sound hs hb

/-- Settles O13: in an invocation by `advance_sound`; between invocations a request leaves the block
idle, but for an admitted EXECUTE. -/
theorem stepKeepsTheStateSound : Obligations.StepKeepsTheStateSound := by
  intro s t hs h
  cases hx : s.executing with
  | true => cases (step_executing hx).symm.trans h; exact advance_sound hs
  | false =>
    have hp : s.params.wf := hs.1
    rcases step_idle_cases hx h with ⟨-, rfl⟩ | ⟨q, rest, rfl | ⟨k, -, rfl⟩ | ⟨i, hd, rfl⟩⟩
    · exact hs
    · exact IdleAfter.sound (s := s) ⟨rfl, hx⟩ hp
    · exact (raiseAnswered_idleAfter (s := { s with port := rest, issuer := q }) hx k).sound hp
    · exact effectOf_sound hp hx hd

end Sys2Proof.Machine
end

section
/-! PROOFS. The family of the encoding: the round trip of the operation port's words (O6, O7), the rows
of the operation table (O8), malformed words (O9, O4, O5), how a request is served (O1, O2, O3, O10,
O11, O32), and what an entry writes that Part A of the encoding fixes (O15, O28, O33 to O36). -/

namespace Sys2Proof

/-! ### The words of an instruction -/

/-- Words that begin with an assembled command word are the operation code map's (R69). -/
@[simp] theorem decode_assembleCw (op sub : Byte) (a : Bool) (ws : List Word) :
    decode (assembleCw op sub a :: ws) = decodeOp op sub a ws := by
  simp [decode]

theorem checkedOperand_of_wf {i : Instr} (h : i.wf = true) : checkedOperand i = .instr i := by
  unfold checkedOperand
  rw [Option.isNone_iff_eq_none.1 h]

/-- Settles O6: the fields of the assembled command word select the row of `i`, and a checked operand
is the one thing in which decoding could still fail. -/
theorem decodeOfEncodeIsTheInstruction : Obligations.DecodeOfEncodeIsTheInstruction := by
  intro i rest hwf
  cases i
  case execute | msrSet | tuArm | regRead | regWrite =>
    exact (decode_assembleCw _ _ _ _).trans (checkedOperand_of_wf hwf)
  all_goals exact decode_assembleCw _ _ _ _

/-! ### What decodes -/

/-- What an answer of the decoder says about the words it was given: an operation is well formed and
they begin with its encoding; an unknown kind is that of `RAISE k`, with a code of no row (R74). -/
def Decoded.ReadFrom (ws : List Word) : Decoded → Prop
  | .instr i => i.wf = true ∧ encode i <+: ws
  | .unknownKind k => k ∉ [1, 2, 3, 4, 5, 6, 7] ∧ [raiseWord k] <+: ws
  | .rejected _ => True

/-- An operation without operand words. -/
theorem readFrom_fixed {i : Instr} {cw : Word} (ws : List Word) (hwf : i.wf = true)
    (he : encode i = [cw]) : (Decoded.instr i).ReadFrom (cw :: ws) :=
  ⟨hwf, by rw [he]; exact ⟨ws, rfl⟩⟩

theorem decodePlain_readFrom {op sub : Byte} {a : Bool} {ws : List Word} {d : Decoded}
    (h : d.ReadFrom (assembleCw op 0 false :: ws)) :
    (decodePlain sub a d).ReadFrom (assembleCw op sub a :: ws) := by
  generalize he : decodePlain sub a d = e
  rcases decodePlain_cases he with ⟨rfl, rfl, rfl⟩ | ⟨r, rfl⟩
  · exact h
  · trivial

theorem decodeSub_readFrom {op sub : Byte} {a : Bool} {ws : List Word} {d : Decoded}
    (h : d.ReadFrom (assembleCw op sub false :: ws)) :
    (decodeSub a d).ReadFrom (assembleCw op sub a :: ws) := by
  generalize he : decodeSub a d = e
  rcases decodeSub_cases he with ⟨rfl, rfl⟩ | ⟨r, rfl⟩
  · exact h
  · trivial

theorem decodeFlag_readFrom {op sub : Byte} {a : Bool} {ws : List Word} {i : Instr}
    (h : (Decoded.instr i).ReadFrom (assembleCw op 0 a :: ws)) :
    (decodeFlag sub i).ReadFrom (assembleCw op sub a :: ws) := by
  generalize hd : decodeFlag sub i = d
  rcases decodeFlag_cases hd with ⟨rfl, rfl⟩ | ⟨r, rfl⟩
  · exact h
  · trivial

theorem checkedOperand_readFrom {ws : List Word} {i : Instr} (h : encode i <+: ws) :
    (checkedOperand i).ReadFrom ws := by
  generalize hd : checkedOperand i = d
  rcases checkedOperand_cases hd with ⟨hwf, rfl⟩ | ⟨r, rfl⟩
  · exact ⟨hwf, h⟩
  · trivial

theorem decodeOne_readFrom {cw : Word} {wdata : List Word} {f : Word → Instr}
    (he : ∀ w, encode (f w) = [cw, w]) : (decodeOne wdata f).ReadFrom (cw :: wdata) := by
  generalize hd : decodeOne wdata f = d
  rcases decodeOne_cases hd with ⟨w, rest, rfl, hwf, rfl⟩ | ⟨r, rfl⟩
  · exact ⟨hwf, by rw [he]; exact ⟨rest, rfl⟩⟩
  · trivial

theorem decodeImage_readFrom (wdata : List Word) :
    (decodeImage wdata).ReadFrom (assembleCw 0x04 0 false :: wdata) := by
  generalize hd : decodeImage wdata = d
  rcases decodeImage_cases hd with ⟨m, rest, rfl, rfl⟩ | ⟨r, rfl⟩
  · exact ⟨rfl, rest, rfl⟩
  · trivial

theorem decodeKind_readFrom (k : Byte) (ws : List Word) :
    (decodeKind k).ReadFrom (raiseWord k :: ws) := by
  generalize hd : decodeKind k = d
  rcases decodeKind_cases hd with h | h | h | h | h | h | h | ⟨hk, rfl⟩
  on_goal 8 => exact ⟨hk, ws, rfl⟩
  all_goals
    obtain ⟨rfl, rfl⟩ := h
    exact readFrom_fixed ws rfl rfl

/-- Row by row of the operation code map (R69). -/
theorem decodeOp_readFrom (op sub : Byte) (a : Bool) (wdata : List Word) :
    (decodeOp op sub a wdata).ReadFrom (assembleCw op sub a :: wdata) := by
  generalize hd : decodeOp op sub a wdata = d
  rcases decodeOp_cases hd with ⟨rfl, rfl⟩ | ⟨rfl, rfl⟩ | ⟨rfl, rfl⟩ | ⟨rfl, rfl⟩ | ⟨rfl, rfl⟩ |
    ⟨rfl, rfl⟩ | ⟨rfl, rfl⟩ | ⟨rfl, rfl⟩ | ⟨rfl, rfl⟩ | ⟨rfl, rfl⟩ | ⟨rfl, rfl⟩ | ⟨rfl, rfl⟩ |
    ⟨rfl, rfl⟩ | ⟨rfl, rfl⟩ | ⟨rfl, rfl⟩ | ⟨rfl, rfl⟩ | ⟨rfl, rfl⟩ | rfl
  · exact decodePlain_readFrom (readFrom_fixed wdata rfl rfl)
  · exact decodePlain_readFrom (decodeOne_readFrom fun _ => rfl)
  · exact decodePlain_readFrom (readFrom_fixed wdata rfl rfl)
  · exact decodePlain_readFrom (decodeImage_readFrom wdata)
  · exact decodePlain_readFrom (readFrom_fixed wdata rfl rfl)
  · exact decodePlain_readFrom (decodeOne_readFrom fun _ => rfl)
  · exact decodePlain_readFrom (readFrom_fixed wdata rfl rfl)
  · exact decodePlain_readFrom (readFrom_fixed wdata rfl rfl)
  · exact decodeSub_readFrom (checkedOperand_readFrom ⟨wdata, rfl⟩)
  · exact decodeSub_readFrom (decodeOne_readFrom fun _ => rfl)
  · exact decodeSub_readFrom (decodeKind_readFrom sub wdata)
  · exact decodeFlag_readFrom (readFrom_fixed wdata rfl rfl)
  · exact decodeFlag_readFrom (readFrom_fixed wdata rfl rfl)
  · exact decodePlain_readFrom (readFrom_fixed wdata rfl rfl)
  · exact decodePlain_readFrom (decodeOne_readFrom fun _ => rfl)
  · exact decodePlain_readFrom (readFrom_fixed wdata rfl rfl)
  · exact decodePlain_readFrom (readFrom_fixed wdata rfl rfl)
  · trivial

/-- Whatever the decoder answers, it has read from the words. -/
theorem decode_readFrom (ws : List Word) : (decode ws).ReadFrom ws := by
  cases ws with
  | nil => trivial
  | cons cw wdata =>
    rcases decode_cons_cases (cw := cw) (wdata := wdata) rfl with ⟨hz, e⟩ | ⟨-, e⟩
    · have h := decodeOp_readFrom (cwOp cw) (cwSub cw) (cwA cw) wdata
      rwa [assembleCw_fields cw hz, e] at h
    · rw [e]; trivial

/-- Settles O7: an answered operation has been read from the words. -/
theorem decodedWordsAreTheEncoding : Obligations.DecodedWordsAreTheEncoding := by
  intro ws i h
  have hr := decode_readFrom ws
  rw [h] at hr
  obtain ⟨hwf, rest, e⟩ := hr
  exact ⟨hwf, rest, e.symm⟩

/-- Settles O4: the command word of `RAISE k` is assembled with `SUB = k`, and there is no operand word
to look at. -/
theorem raiseWordDecodesByKindCode : Obligations.RaiseWordDecodesByKindCode := by
  intro k ws
  exact decode_assembleCw 0x20 k false ws

/-- Settles O5: each listed word is the encoding of the operation listed beside it. -/
theorem listedCommandWordsDecode : Obligations.ListedCommandWordsDecode := by
  have dec := decodeOfEncodeIsTheInstruction
  exact ⟨dec .reset [] rfl, dec (.msrSet 0x8040) [] rfl, dec (.regWrite 5 3) [] rfl,
    dec (.regWrite 11 0x00120000) [] rfl, dec (.setIrqLine true) [] rfl, dec (.execute 8) [] rfl,
    dec .enterSupervisor [] rfl, dec .restoreFromSupervisor [] rfl, dec (.regRead 2) [] rfl⟩

/-! ### The rows of the operation table -/

/-- A field that the mask covers is the match value's. -/
theorem extractLsb'_of_masked {cw mask m : Word} {start len : Nat}
    (hm : mask.extractLsb' start len = BitVec.allOnes len) (h : cw &&& mask = m) :
    cw.extractLsb' start len = m.extractLsb' start len := by
  rw [← h, BitVec.extractLsb'_and, hm, BitVec.and_allOnes]

/-- The command word of an instruction's encoding is selected by its row (`Laws.OpcodeRow`). -/
theorem encode_headD_selected (i : Instr) : (encode i).headD 0 &&& rowMask i = rowMatch i := by
  cases i
  case reset => exact Laws.OpcodeRow.reset
  case execute n => exact Laws.OpcodeRow.execute n
  case stateSave => exact Laws.OpcodeRow.stateSave
  case stateLoad m => exact Laws.OpcodeRow.stateLoad m
  case msrGet => exact Laws.OpcodeRow.msrGet
  case msrSet v => exact Laws.OpcodeRow.msrSet v
  case enterSupervisor => exact Laws.OpcodeRow.enterSupervisor
  case restoreFromSupervisor => exact Laws.OpcodeRow.restoreFromSupervisor
  case regRead k => exact Laws.OpcodeRow.regRead k
  case regWrite k v => exact Laws.OpcodeRow.regWrite k v
  case excIrq => exact Laws.OpcodeRow.excIrq
  case excDecrementer => exact Laws.OpcodeRow.excDecrementer
  case excTrap => exact Laws.OpcodeRow.excTrap
  case excSyscall => exact Laws.OpcodeRow.excSyscall
  case excSmi => exact Laws.OpcodeRow.excSmi
  case excDsi => exact Laws.OpcodeRow.excDsi
  case excIsi => exact Laws.OpcodeRow.excIsi
  case setIrqLine a => exact Laws.OpcodeRow.setIrqLine a
  case setSmiLine a => exact Laws.OpcodeRow.setSmiLine a
  case check => exact Laws.OpcodeRow.check
  case tuArm n => exact Laws.OpcodeRow.tuArm n
  case tuTick => exact Laws.OpcodeRow.tuTick
  case tuCommit => exact Laws.OpcodeRow.tuCommit

/-- The mask of a register operation leaves the index open, and nothing else. -/
theorem eq_assembleCw_of_indexMask {cw : Word} (op : Byte)
    (h : cw &&& 0xff00ffff = assembleCw op 0 false) : cw = assembleCw op (cwSub cw) false := by
  have hop : cwOp cw = op := (extractLsb'_of_masked rfl h).trans (cwOp_assembleCw op 0 false)
  have hz : cwZ cw = 0 := (extractLsb'_of_masked rfl h).trans (cwZ_assembleCw op 0 false)
  have ha : cwA cw = false := by
    have h0 := congrArg cwA h
    rwa [cwA_assembleCw, cwA, BitVec.getLsbD_and, show (0xff00ffff : Word).getLsbD 0 = true from rfl,
      Bool.and_true] at h0
  rw [← hop, ← ha, assembleCw_fields cw hz]

/-- The mask of a line operation leaves the flag open, and nothing else. -/
theorem eq_assembleCw_of_flagMask {cw : Word} (op : Byte)
    (h : cw &&& 0xfffffffe = assembleCw op 0 false) : cw = assembleCw op 0 (cwA cw) := by
  have hop : cwOp cw = op := (extractLsb'_of_masked rfl h).trans (cwOp_assembleCw op 0 false)
  have hsub : cwSub cw = 0 := (extractLsb'_of_masked rfl h).trans (cwSub_assembleCw op 0 false)
  have hz : cwZ cw = 0 := (extractLsb'_of_masked rfl h).trans (cwZ_assembleCw op 0 false)
  rw [← hop, ← hsub, assembleCw_fields cw hz]

/-- A full mask selects the one command word of its operation. -/
theorem eq_headD_of_fullMask {cw : Word} {i : Instr} (hm : rowMask i = 0xffffffff)
    (h : cw &&& rowMask i = rowMatch i) : cw = (encode i).headD 0 := calc
  cw = cw &&& rowMask i := by rw [hm]; exact BitVec.and_allOnes.symm
  _ = (encode i).headD 0 &&& rowMask i := h.trans (encode_headD_selected i).symm
  _ = (encode i).headD 0 := by rw [hm]; exact BitVec.and_allOnes

/-- A row selects only command words of its own operation. -/
theorem eq_headD_of_selected {cw : Word} {i : Instr} (h : cw &&& rowMask i = rowMatch i) :
    ∃ j : Instr, j.ctorIdx = i.ctorIdx ∧ cw = (encode j).headD 0 := by
  cases i
  case regRead => exact ⟨.regRead (cwSub cw), rfl, eq_assembleCw_of_indexMask 0x14 h⟩
  case regWrite => exact ⟨.regWrite (cwSub cw) 0, rfl, eq_assembleCw_of_indexMask 0x15 h⟩
  case setIrqLine => exact ⟨.setIrqLine (cwA cw), rfl, eq_assembleCw_of_flagMask 0x30 h⟩
  case setSmiLine => exact ⟨.setSmiLine (cwA cw), rfl, eq_assembleCw_of_flagMask 0x31 h⟩
  all_goals exact ⟨_, rfl, eq_headD_of_fullMask rfl h⟩

/-- The decoder answers with the operation of number `n`, or rejects the words for their operands
alone. -/
def Decoded.IsOperation (n : Nat) (d : Decoded) : Prop :=
  (∃ j : Instr, d = .instr j ∧ j.ctorIdx = n) ∨ d = .rejected .operandMissing ∨
    ∃ e, d = .rejected (.badOperand e)

theorem decodeOne_isOperation {f : Word → Instr} {n : Nat} (hf : ∀ w, (f w).ctorIdx = n)
    (wdata : List Word) : (decodeOne wdata f).IsOperation n :=
  (decodeOne_answers wdata f).imp_left fun ⟨w, e⟩ => ⟨f w, e, hf w⟩

theorem decodeImage_isOperation (m : Image) (wdata : List Word) :
    (decodeImage wdata).IsOperation (Instr.stateLoad m).ctorIdx := by
  unfold decodeImage
  split
  · exact .inl ⟨_, rfl, rfl⟩
  · exact .inr (.inl rfl)

/-- A command word of an operation decodes to it, whatever words follow. -/
theorem decode_headD_isOperation (i : Instr) (ws : List Word) :
    (decode ((encode i).headD 0 :: ws)).IsOperation i.ctorIdx := by
  cases i
  all_goals rw [encode, List.headD_cons, decode_assembleCw]
  case execute => exact decodeOne_isOperation (f := .execute) (fun _ => rfl) ws
  case msrSet => exact decodeOne_isOperation (f := .msrSet) (fun _ => rfl) ws
  case tuArm => exact decodeOne_isOperation (f := .tuArm) (fun _ => rfl) ws
  case regWrite k v => exact decodeOne_isOperation (f := .regWrite k) (fun _ => rfl) ws
  case regRead k => exact (checkedOperand_answers (.regRead k)).imp (fun e => ⟨_, e, rfl⟩) .inr
  case stateLoad m => exact decodeImage_isOperation m ws
  all_goals exact .inl ⟨_, rfl, rfl⟩

/-- The twenty-three match values, in the order of the operations. -/
def rowMatches : List Word :=
  [0x01000000, 0x02000000, 0x03000000, 0x04000000, 0x10000000, 0x11000000, 0x12000000, 0x13000000,
   0x14000000, 0x15000000, 0x20010000, 0x20020000, 0x20030000, 0x20040000, 0x20050000, 0x20060000,
   0x20070000, 0x30000000, 0x31000000, 0x32000000, 0x40000000, 0x41000000, 0x42000000]

/-- A match value belongs to one operation. -/
theorem rowMatches_idxOf_rowMatch (i : Instr) : rowMatches.idxOf (rowMatch i) = i.ctorIdx := by
  cases i <;> rfl

/-- The match value of the row that selects a command word: `OP`, and with `OP = 0x20` the kind code. -/
def selectedMatch (cw : Word) : Word :=
  assembleCw (cwOp cw) (if cwOp cw = 0x20 then cwSub cw else 0) false

theorem selectedMatch_headD (i : Instr) : selectedMatch ((encode i).headD 0) = rowMatch i := by
  cases i <;> simp [selectedMatch, encode] <;> rfl

/-- The selecting row's operation is determined by the word. -/
theorem idxOf_selectedMatch_of_selected {cw : Word} {i : Instr} (h : cw &&& rowMask i = rowMatch i) :
    rowMatches.idxOf (selectedMatch cw) = i.ctorIdx := by
  obtain ⟨j, hj, rfl⟩ := eq_headD_of_selected h
  rw [← hj, selectedMatch_headD, rowMatches_idxOf_rowMatch]

/-- The command word of what decodes is that of its encoding. -/
theorem eq_headD_of_decode {cw : Word} {ws : List Word} {i : Instr}
    (h : decode (cw :: ws) = .instr i) : cw = (encode i).headD 0 := by
  obtain ⟨-, rest, e⟩ := decodedWordsAreTheEncoding _ _ h
  cases i <;> exact (List.cons.inj e).1

/-- Settles O8: the row that selects a word is that of its `selectedMatch`, and such a word is the
command word of an encoding, which the decoder reads. -/
theorem noTwoRowsShareAWord : Obligations.NoTwoRowsShareAWord := by
  intro cw ws i
  refine ⟨fun j hi hj => ?_, fun hd => ?_, fun h => ?_⟩
  · exact (idxOf_selectedMatch_of_selected hi).symm.trans (idxOf_selectedMatch_of_selected hj)
  · rw [eq_headD_of_decode hd]; exact encode_headD_selected i
  · obtain ⟨j, hj, rfl⟩ := eq_headD_of_selected h
    exact hj ▸ decode_headD_isOperation j ws

/-! ### Malformed words -/

/-- No clause a, b, c, d or g of R73 applies to the words. -/
structure WellFormedWords (cw : Word) (ws : List Word) : Prop where
  op : cwOp cw ∈ [0x01#8, 0x02#8, 0x03#8, 0x04#8, 0x10#8, 0x11#8, 0x12#8, 0x13#8, 0x14#8, 0x15#8,
    0x20#8, 0x30#8, 0x31#8, 0x32#8, 0x40#8, 0x41#8, 0x42#8]
  reserved : cwZ cw = 0
  sub : cwOp cw ∉ [0x14#8, 0x15#8, 0x20#8] → cwSub cw = 0
  flag : cwOp cw ∉ [0x30#8, 0x31#8] → cwA cw = false
  index : cwOp cw ∈ [0x14#8, 0x15#8] → (cwSub cw).toNat ≤ 11
  budget : cwOp cw = 0x02#8 → (ws.headD 0).toNat ≤ 0x7ffffffe

namespace WellFormedWords

/-- A command word without `SUB` and `A`, other than EXECUTE's. -/
theorem plain {op : Byte} (ws : List Word)
    (hop : op ∈ [0x01#8, 0x03#8, 0x04#8, 0x10#8, 0x11#8, 0x12#8, 0x13#8, 0x32#8, 0x40#8, 0x41#8,
      0x42#8]) : WellFormedWords (assembleCw op 0 false) ws := by
  constructor
  case op => rw [cwOp_assembleCw]; revert op; decide
  case budget => rw [cwOp_assembleCw]; rintro rfl; exact absurd hop (by decide)
  all_goals simp

/-- An operation's own words: the operand ranges are those of `Instr.wf`. -/
theorem of_encode {i : Instr} {cw : Word} {ws : List Word} (hwf : i.wf = true)
    (h : encode i <+: cw :: ws) : WellFormedWords cw ws := by
  obtain ⟨rest, e⟩ := h
  cases i <;> obtain ⟨rfl, rfl⟩ := List.cons.inj e
  case execute n =>
    have hn : n.toNat ≤ 0x7ffffffe := by simpa [Instr.wf, Instr.defect, Config.budgetMax] using hwf
    constructor <;> simp [hn]
  case regRead k | regWrite k _ =>
    have hk : k.toNat ≤ 11 := by simpa [Instr.wf, Instr.defect] using hwf
    constructor <;> simp [hk]
  case excIrq | excDecrementer | excTrap | excSyscall | excSmi | excDsi | excIsi | setIrqLine |
      setSmiLine => constructor <;> simp
  all_goals exact plain _ (by decide)

theorem raise (k : Byte) (ws : List Word) : WellFormedWords (raiseWord k) ws := by
  constructor <;> simp [raiseWord]

/-- Words to which one of the clauses applies are rejected: all others the decoder has read from an
encoding or a `RAISE k`. -/
theorem rejected_of_not {cw : Word} {ws : List Word} (h : ¬ WellFormedWords cw ws) :
    ∃ e, decode (cw :: ws) = .rejected e := by
  have hr := decode_readFrom (cw :: ws)
  cases hd : decode (cw :: ws) with
  | rejected e => exact ⟨e, rfl⟩
  | instr i =>
    rw [hd] at hr
    obtain ⟨hwf, hp⟩ := hr
    exact absurd (of_encode hwf hp) h
  | unknownKind k =>
    rw [hd] at hr
    obtain ⟨-, rest, e⟩ := hr
    obtain ⟨rfl, -⟩ := List.cons.inj e
    exact absurd (raise k ws) h

end WellFormedWords

/-- Settles O9: each clause contradicts one field of `WellFormedWords`. -/
theorem malformedWordsAreRejected : Obligations.MalformedWordsAreRejected := by
  intro cw ws
  refine ⟨fun hop => ?_, fun hz => ?_, fun hsub hop => ?_, fun ha hop => ?_, fun hk hop => ?_,
    fun hn hop => ?_⟩ <;> refine WellFormedWords.rejected_of_not fun h => ?_
  · exact hop h.op
  · exact hz h.reserved
  · exact hsub (h.sub hop)
  · exact absurd (ha.symm.trans (h.flag hop)) (by decide)
  · exact Nat.not_le_of_lt hk (h.index hop)
  · exact Nat.not_le_of_lt hn (h.budget hop)

end Sys2Proof

namespace Sys2Proof.Machine

open Sys2Proof

/-! ### How a request is served -/

/-- Between invocations a step serves the oldest request of the port. -/
theorem step_request {s : State} {r : Request} {rest : List Request} (hx : s.executing = false)
    (hp : s.port = r :: rest) : step s = State.serveRequest { s with port := rest } r := by
  rw [step_idle hx, State.servePort, hp]

theorem serveRequest_instr {s : State} {r : Request} {i : Instr} (h : decode r.words = .instr i) :
    s.serveRequest r = exec i { s with issuer := r.issuer } := by
  rw [State.serveRequest, h]

theorem serveRequest_rejected {s : State} {r : Request} {e : DecodeError}
    (h : decode r.words = .rejected e) :
    s.serveRequest r = .next (State.refuse { s with issuer := r.issuer }) := by
  rw [State.serveRequest, h]

/-- Settles O1: the request of the port is decoded, and its operation run. -/
theorem stepRunsTheDecodedOperation : Obligations.StepRunsTheDecodedOperation := by
  intro s r rest i hx hp hd
  rw [step_request hx hp, serveRequest_instr hd]

/-- Settles O2: the request of the port is decoded, and refused. -/
theorem malformedRequestsChangeNothing : Obligations.MalformedRequestsChangeNothing := by
  intro s r rest e hx hp hd
  rw [step_request hx hp, serveRequest_rejected hd]
  rfl

/-! ### Unknown kinds -/

/-- Settles O28: the asynchronous kinds by cases, and the codes of each variant one by one. -/
theorem kindCodesOfBothVariants : Obligations.KindCodesOfBothVariants := by
  intro v k
  refine ⟨fun K => by cases K <;> rfl, ?_⟩
  cases v <;> revert k <;> decide

/-- A code the decoder answers as an unknown kind is one on either variant (R58, R74). -/
theorem kindOfCode_of_decode_unknownKind {ws : List Word} {k : Byte}
    (h : decode ws = .unknownKind k) (v : Variant) : kindOfCode v k = none := by
  have hr := decode_readFrom ws
  rw [h] at hr
  obtain ⟨hk, -⟩ := hr
  clear h
  cases v <;> revert k <;> decide

theorem raiseAnswered_unknown {s : State} {k : Byte} (h : kindOfCode s.params.variant k = none) :
    s.raiseAnswered k = s.abort k := by
  rw [State.raiseAnswered, h]

/-- Between invocations the abort has none to end. -/
theorem abort_idle {s : State} (hx : s.executing = false) (k : Byte) :
    s.abort k = { s with fatal := true, fatalKind := k, response := .pending } := by
  rw [State.abort, ← hx]

/-- A decoded unknown kind aborts a live session; one that is over refuses it (R74, R113, R30). -/
theorem serveRequest_unknownKind {s : State} {r : Request} {k : Byte}
    (h : decode r.words = .unknownKind k) :
    s.serveRequest r = .next (if s.fatal then State.refuse { s with issuer := r.issuer }
      else State.abort { s with issuer := r.issuer } k) := by
  have hk := kindOfCode_of_decode_unknownKind h s.params.variant
  rw [State.serveRequest, h, ← raiseAnswered_unknown (s := { s with issuer := r.issuer }) hk]
  rfl

/-- A request of R74 is refused exactly in a session that is over. -/
theorem denial_unknown_isSome {s : State} {i : Instr} (h : s.asksUnknownKind i = true) :
    (s.denial i).isSome = s.fatal := by
  rw [Bool.eq_iff_iff, Option.isSome_iff_ne_none, Ne, denial_unknown h, Bool.not_eq_false]

/-- EXC_DSI on the 602 is served as its code is. -/
theorem exec_excDsi_602 {s : State} (hv : s.params.variant = .v602) :
    exec .excDsi s = .next (if s.fatal then s.refuse else s.abort 6) := by
  rw [exec_eq, denial_unknown_isSome ((asksUnknownKind_iff s .excDsi).2 ⟨hv, .inl rfl⟩),
    ← raiseAnswered_unknown (s := s) (k := 6) (by rw [hv]; decide)]
  rfl

/-- EXC_ISI on the 602 is served as its code is. -/
theorem exec_excIsi_602 {s : State} (hv : s.params.variant = .v602) :
    exec .excIsi s = .next (if s.fatal then s.refuse else s.abort 7) := by
  rw [exec_eq, denial_unknown_isSome ((asksUnknownKind_iff s .excIsi).2 ⟨hv, .inr rfl⟩),
    ← raiseAnswered_unknown (s := s) (k := 7) (by rw [hv]; decide)]
  rfl

/-- Settles O32: in a live session the two requests are the abort. -/
theorem storageKindsAreFatalOn602 : Obligations.StorageKindsAreFatalOn602 := by
  intro s hf hv
  rw [exec_excDsi_602 hv, exec_excIsi_602 hv, hf]
  exact ⟨rfl, rfl⟩

/-- The three forms of a request for an unknown kind are served alike. -/
theorem serveRequest_unknown {s : State} {r : Request} {k : Byte}
    (h : decode r.words = .unknownKind k ∨ s.params.variant = .v602 ∧
      (decode r.words = .instr .excDsi ∧ k = 6 ∨ decode r.words = .instr .excIsi ∧ k = 7)) :
    s.serveRequest r = .next (if s.fatal then State.refuse { s with issuer := r.issuer }
      else State.abort { s with issuer := r.issuer } k) := by
  rcases h with hd | ⟨hv, ⟨hd, rfl⟩ | ⟨hd, rfl⟩⟩
  · exact serveRequest_unknownKind hd
  · exact (serveRequest_instr hd).trans (exec_excDsi_602 (s := { s with issuer := r.issuer }) hv)
  · exact (serveRequest_instr hd).trans (exec_excIsi_602 (s := { s with issuer := r.issuer }) hv)

/-- Settles O3: between invocations the abort writes nothing but the flag, its code and the answer. -/
theorem unknownKindRequestIsFatal : Obligations.UnknownKindRequestIsFatal := by
  intro s r rest k hx hp h
  have e := (step_request hx hp).trans (serveRequest_unknown (s := { s with port := rest }) h)
  refine ⟨fun hf => e.trans (congrArg _ ?_), fun hf => e.trans (congrArg _ (if_pos hf))⟩
  exact (if_neg (Bool.eq_false_iff.1 hf)).trans
    (abort_idle (s := { s with port := rest, issuer := r.issuer }) hx k)

/-! ### Who may ask, and what is refused -/

/-- Settles O11: one row of the issuer column for each operation. -/
theorem issuersOfEveryOperation : Obligations.IssuersOfEveryOperation := by
  refine ⟨?_, ?_, ?_, ?_, ?_⟩
  · rintro i (rfl | ⟨n, rfl⟩ | rfl | ⟨m, rfl⟩) q <;> simp [issuersOf]
  · rintro i (rfl | ⟨v, rfl⟩) q <;> cases q <;> simp [issuersOf]
  · rintro i (rfl | rfl) q <;> simp [issuersOf]
  · rintro i (⟨k, rfl⟩ | ⟨k, v, rfl⟩ | ⟨a, rfl⟩ | ⟨a, rfl⟩) q <;> cases q <;> simp [issuersOf]
  · rintro i (rfl | rfl | rfl | rfl | rfl | rfl | rfl | rfl | ⟨n, rfl⟩ | rfl | rfl) q <;>
      simp [issuersOf]

theorem exec_refused {i : Instr} {s : State} (h : s.denial i ≠ none) :
    exec i s = .next { s with response := .refused } := by
  obtain ⟨d, hd⟩ := Option.ne_none_iff_exists'.1 h
  exact exec_denied hd

/-- An operand out of range is refused, whoever asks and whenever (R73 d, g). -/
theorem wf_of_denial {s : State} {i : Instr} (h : s.denial i = none) : i.wf = true := by
  by_contra hw
  rw [Bool.not_eq_true] at hw
  simp [State.denial, hw] at h

/-- What is admitted and is no request of R74, an issuer of its own asks for, and the host only
between invocations (R69, R72). -/
theorem issuer_of_denial {s : State} {i : Instr} (hu : s.asksUnknownKind i = false)
    (h : s.denial i = none) :
    s.issuer ∈ issuersOf i ∧ (s.issuer = .host → s.executing = false) := by
  obtain ⟨-, hi, hx, -⟩ := (denial_eq_none_iff hu).1 h
  exact ⟨hi, hx⟩

/-- A register that is open to a handler has one of the five indices of R170. -/
theorem index_of_not_closedToHandler {k : Byte} {v : Word}
    (h : closedToHandler (.regWrite k v) = false) : k ∈ [1#8, 3#8, 4#8, 10#8, 11#8] := by
  simp only [closedToHandler] at h
  revert k
  decide

/-- Settles O10: what `denial_eq_none_iff` says of an admitted operation contradicts each clause. -/
theorem inadmissibleOperationsChangeNothing : Obligations.InadmissibleOperationsChangeNothing := by
  intro i s h
  refine exec_refused fun hd => ?_
  rcases h with ⟨hq, h602⟩ | ⟨k, rfl, hk⟩ | ⟨k, v, rfl, hk⟩ | ⟨n, rfl, hn⟩ | ⟨hi, hv⟩ |
    ⟨hf, hread, hget, hsave⟩ | ⟨hq, k, v, rfl, hk⟩
  · have hu : s.asksUnknownKind i = false := by
      by_contra hu
      obtain ⟨hv, hi⟩ := (asksUnknownKind_iff s i).1 (by simpa using hu)
      obtain ⟨hdsi, hisi⟩ := h602 hv
      exact hi.elim hdsi hisi
    obtain ⟨hi, hx⟩ := issuer_of_denial hu hd
    rcases hq with hq | ⟨hq, hr⟩
    · exact hq hi
    · exact absurd (hr.symm.trans (hx hq)) (by decide)
  · exact absurd (wf_of_denial hd) (by simp [Instr.wf, Instr.defect, hk])
  · exact absurd (wf_of_denial hd) (by simp [Instr.wf, Instr.defect, hk])
  · exact absurd (execute_admitted hd).1 (Nat.not_le_of_lt hn)
  · have hu : s.asksUnknownKind i = false := by rcases hi with rfl | rfl <;> rfl
    have ho : only602 i = true := by rcases hi with rfl | rfl <;> rfl
    obtain ⟨-, -, -, -, hno603, -⟩ := (denial_eq_none_iff hu).1 hd
    exact hno603 ho hv
  · have ha := admittedWhenFatal_of_denial hd hf
    cases i
    case regRead k => exact hread k rfl
    case msrGet => exact hget rfl
    case stateSave => exact hsave rfl
    all_goals exact Bool.false_ne_true ha
  · obtain ⟨-, -, -, -, -, hc⟩ := (denial_eq_none_iff (i := .regWrite k v) rfl).1 hd
    exact hk (index_of_not_closedToHandler (hc hq))

/-! ### What an entry writes -/

theorem dispatch_of_open {s : State} {K : ExcKind} (h : s.gatedOff K = false) :
    s.dispatch K = s.enter K := by
  rw [State.dispatch, h]; rfl

/-- A field that an entry clears is 0 after it (R63). -/
theorem msrBit_msrAfterEntry_cleared {l : MsrLayout} {f : MsrField} (hl : l.wf)
    (hf : f ∈ clearedFields) (m : Word) : msrBit l (msrAfterEntry l m) f = false := by
  have hle : f ≠ .le := by rintro rfl; exact absurd hf (by decide)
  rw [msrBit, msrAfterEntry_getLsbD l m _ (l.index f).isLt]
  simp [layout_index_inj hl, hle, hf]

/-- LE is the old ILE (R105). -/
theorem msrBit_msrAfterEntry_le (l : MsrLayout) (m : Word) :
    msrBit l (msrAfterEntry l m) .le = msrBit l m .ile := by
  rw [msrBit, msrAfterEntry_getLsbD l m _ (l.index .le).isLt]
  simp

/-- Every other bit is kept (R63). -/
theorem msrAfterEntry_getLsbD_other {l : MsrLayout} {k : Fin 32}
    (h : ∀ f ∈ clearedFields ++ [.le], k ≠ l.index f) (m : Word) :
    (msrAfterEntry l m).getLsbD k.val = m.getLsbD k.val := by
  have hcleared : ¬ ∃ f ∈ clearedFields, k.val = (l.index f).val := fun ⟨f, hf, e⟩ =>
    h f (List.mem_append_left _ hf) (Fin.ext e)
  have hle : k.val ≠ (l.index .le).val := fun e =>
    h .le (List.mem_append_right _ (List.mem_singleton_self _)) (Fin.ext e)
  rw [msrAfterEntry_getLsbD l m k.val k.isLt]
  simp [hcleared, hle]

/-- Settles O33: the three kinds of bits after `msrAfterEntry`. -/
theorem entryStatusBitByBit : Obligations.EntryStatusBitByBit := by
  intro s K hl hg
  rw [dispatch_of_open hg]
  exact ⟨fun f hf => msrBit_msrAfterEntry_cleared hl hf s.msr,
    msrBit_msrAfterEntry_le s.params.layout s.msr,
    fun k hk => msrAfterEntry_getLsbD_other hk s.msr⟩

/-- Only TRAP has a marker (R62). -/
theorem kindMarker_eq (K : ExcKind) : kindMarker K = if K = .trap then 0x00020000 else 0 := by
  cases K <;> rfl

theorem srr1Mask_getLsbD {k : Nat} (hk : k < 32) :
    srr1Mask.getLsbD k = decide (¬ (16 ≤ k ∨ k = 7 ∨ k = 3 ∨ k = 2)) := by
  revert k; decide

theorem kindMarker_getLsbD (K : ExcKind) {k : Nat} (hk : k < 32) :
    (kindMarker K).getLsbD k = decide (K = .trap ∧ k = 17) := by
  cases K <;> revert k <;> decide

/-- One bit of the saved status (R103). -/
theorem srr1Of_getLsbD (m : Word) (K : ExcKind) {k : Nat} (hk : k < 32) :
    (srr1Of m (kindMarker K)).getLsbD k =
      (m.getLsbD k && decide (¬ (16 ≤ k ∨ k = 7 ∨ k = 3 ∨ k = 2)) ||
        decide (K = .trap ∧ k = 17)) := by
  rw [srr1Of, BitVec.getLsbD_or, BitVec.getLsbD_and, srr1Mask_getLsbD hk, kindMarker_getLsbD K hk]

/-- Settles O34: every clause reads off one bit of `srr1Of`. -/
theorem savedStatusBitByBit : Obligations.SavedStatusBitByBit := by
  intro s K k hg hk
  rw [dispatch_of_open hg, State.enter_srr1, srr1Of_getLsbD s.msr K hk]
  refine ⟨by rw [srr1Of, kindMarker_eq]; rfl, fun h => ?_, fun h => ?_, fun h => ?_⟩
  · have hm : 16 ≤ k ∨ k = 7 ∨ k = 3 ∨ k = 2 := by omega
    have h17 : k ≠ 17 := by omega
    simp [hm, h17]
  · subst h; simp
  · have h17 : k ≠ 17 := by omega
    simp [h, h17]

/-- The base of the vector (R104). -/
theorem vectorBase_eq (s : State) : s.vectorBase s.msr =
    if s.msrF .ip then 0xfff00000 else if s.params.variant = .v602 then s.ibr else 0x00000000 := by
  rw [State.vectorBase, State.msrF]
  cases s.params.variant <;> rfl

/-- Settles O35: the base by `vectorBase_eq`, and the offset of each kind. -/
theorem vectorOfEveryKind : Obligations.VectorOfEveryKind := by
  intro s K hg
  rw [dispatch_of_open hg, State.enter_npc, vectorBase_eq]
  cases K <;> rfl

/-- The fixed base shares no bit with an offset, so the OR is the sum (R61). -/
theorem fixedBase_or_kindOffset (K : ExcKind) :
    0xfff00000 ||| kindOffset K = 0xfff00000 + kindOffset K :=
  (or_eq_add_iff _ _).2 (by cases K <;> decide)

/-- Settles O36: an entry goes to the OR of base and offset, which is the sum exactly when they share
no bit (`or_eq_add_iff`). -/
theorem vectorOrAgainstSum : Obligations.VectorOrAgainstSum := by
  intro s K hg off
  have hoff : off = kindOffset K := by cases K <;> rfl
  have hnpc : (s.dispatch K).npc = s.vectorBase s.msr ||| off := by
    rw [dispatch_of_open hg, State.enter_npc, hoff]
  have h602 (hip : s.msrF .ip = false) (hv : s.params.variant = .v602) :
      (s.dispatch K).npc = s.ibr ||| off := by
    rw [hnpc, vectorBase_eq, hip, hv]; rfl
  refine ⟨fun hip => ?_, fun hip hv => ?_, fun hip hv h => ?_, fun hip hv h => ?_,
    fun hip hv hibr hK => ?_⟩
  · rw [hnpc, vectorBase_eq, hip, hoff]; exact fixedBase_or_kindOffset K
  · rw [hnpc, vectorBase_eq, hip, hv]
    exact (or_eq_add_iff _ _).2 BitVec.zero_and
  · exact (h602 hip hv).trans ((or_eq_add_iff _ _).2 h)
  · rw [h602 hip hv]
    exact ⟨rfl, fun e => h ((or_eq_add_iff _ _).1 e)⟩
  · rw [h602 hip hv, hibr, hoff]
    rcases hK with rfl | rfl <;> rfl

/-! ### After reset -/

/-- Settles O15: the reset state is written out with these values. -/
theorem resetStateHoldsTheLiterals : Obligations.ResetStateHoldsTheLiterals :=
  ⟨rfl, rfl, rfl, rfl, rfl, rfl⟩

end Sys2Proof.Machine
end

section
/-! PROOFS. The family of the MSR register: MSR_GET and MSR_SET (O24). -/

namespace Sys2Proof.Machine

open Sys2Proof

/-- MSR_GET is admitted for every issuer, in a fatal session too (R69, R30). -/
theorem denial_msrGet {s : State} (hw : s.hostWaits) : s.denial .msrGet = none :=
  have hi : s.issuer ∈ issuersOf .msrGet := by cases s.issuer <;> decide
  denial_eq_none_of rfl hi hw (fun _ => rfl) (fun h => nomatch h) (fun _ => rfl)

/-- MSR_SET is admitted for every issuer, in a live session only (R69, R30). -/
theorem denial_msrSet {s : State} (v : Word) (hw : s.hostWaits) (hf : s.fatal = false) :
    s.denial (.msrSet v) = none :=
  have hi : s.issuer ∈ issuersOf (.msrSet v) := by cases s.issuer <;> simp [issuersOf]
  denial_eq_none_of rfl hi hw (fun h => absurd (hf.symm.trans h) (by decide))
    (fun h => nomatch h) (fun _ => rfl)

/-- Settles O24: both operations are admitted, and then do their whole effect (`exec_admitted`). -/
theorem msrIsReadAndReplacedWhole : Obligations.MsrIsReadAndReplacedWhole := by
  intro s v hw
  exact ⟨exec_admitted (denial_msrGet hw), fun hf => exec_admitted (denial_msrSet v hw hf)⟩

end Sys2Proof.Machine
end

section
/-! PROOFS. The family of the privilege shadow: ENTER_SUPERVISOR (O25), RESTORE_FROM_SUPERVISOR (O26),
and the round trip of the two (O27). -/

namespace Sys2Proof.Machine

open Sys2Proof

/-! ### Bits of `msr` -/

/-- A field after ENTER_SUPERVISOR: EE, PR and AP are 0, SA is 1 (R91). -/
theorem msrBit_msrEntered {l : MsrLayout} (hl : l.wf) (f : MsrField) (m : Word) :
    msrBit l (msrEntered l m) f =
      ((msrBit l m f && decide (f ∉ [MsrField.ee, .pr, .ap])) || decide (f = .sa)) := by
  rw [msrBit, msrEntered_getLsbD l m _ (l.index f).isLt]
  simp [layout_index_inj hl, msrBit]

/-- The four fields after RESTORE_FROM_SUPERVISOR are those of the shadow (R92). -/
theorem msrBit_msrRestored {l : MsrLayout} (hl : l.wf) (sh : BitVec 4) (m : Word) :
    msrBit l (msrRestored l sh m) .ee = sh.getLsbD 0 ∧
      msrBit l (msrRestored l sh m) .sa = sh.getLsbD 1 ∧
      msrBit l (msrRestored l sh m) .ap = sh.getLsbD 2 ∧
      msrBit l (msrRestored l sh m) .pr = sh.getLsbD 3 := by
  have bit (f : MsrField) := msrRestored_getLsbD l sh m _ (l.index f).isLt
  refine ⟨?_, ?_, ?_, ?_⟩ <;> rw [msrBit, bit] <;> simp [layout_index_inj hl]

/-- ENTER_SUPERVISOR keeps every bit that is none of the four (R94). -/
theorem msrEntered_getLsbD_other {l : MsrLayout} {k : Fin 32}
    (h : ∀ f ∈ shadowFields, k ≠ l.index f) (m : Word) :
    (msrEntered l m).getLsbD k.val = m.getLsbD k.val := by
  rw [msrEntered_getLsbD l m k.val k.isLt]
  simp_all [shadowFields, Fin.val_inj]

/-- RESTORE_FROM_SUPERVISOR keeps every bit that is none of the four (R92). -/
theorem msrRestored_getLsbD_other {l : MsrLayout} {k : Fin 32}
    (h : ∀ f ∈ shadowFields, k ≠ l.index f) (sh : BitVec 4) (m : Word) :
    (msrRestored l sh m).getLsbD k.val = m.getLsbD k.val := by
  rw [msrRestored_getLsbD l sh m k.val k.isLt]
  simp_all [shadowFields, Fin.val_inj]

/-- Restoring what ENTER_SUPERVISOR packed gives back each of the four fields, whatever `msr` has
become in between (R93). -/
theorem msrBit_msrRestored_packShadow {l : MsrLayout} (hl : l.wf) {f : MsrField}
    (hf : f ∈ shadowFields) (m m' : Word) :
    msrBit l (msrRestored l (packShadow l m) m') f = msrBit l m f := by
  obtain ⟨ree, rsa, rap, rpr⟩ := msrBit_msrRestored hl (packShadow l m) m'
  obtain ⟨pee, psa, pap, ppr⟩ := packShadow_bits l m
  simp only [shadowFields, List.mem_cons, List.not_mem_nil, or_false] at hf
  rcases hf with rfl | rfl | rfl | rfl
  · exact ree.trans pee
  · exact rpr.trans ppr
  · exact rap.trans pap
  · exact rsa.trans psa

/-- The whole word comes back: a bit is one of the four fields, or both operations keep it (R93, R94). -/
theorem msrRestored_msrEntered {l : MsrLayout} (hl : l.wf) (m : Word) :
    msrRestored l (packShadow l m) (msrEntered l m) = m := by
  refine BitVec.eq_of_getLsbD_eq fun i hi => ?_
  by_cases h : ∃ f ∈ shadowFields, ⟨i, hi⟩ = l.index f
  · obtain ⟨f, hf, e⟩ := h
    have hbit := msrBit_msrRestored_packShadow hl hf m (msrEntered l m)
    rwa [msrBit, msrBit, ← e] at hbit
  · have hother : ∀ f ∈ shadowFields, ⟨i, hi⟩ ≠ l.index f := fun f hf e => h ⟨f, hf, e⟩
    exact (msrRestored_getLsbD_other hother _ _).trans (msrEntered_getLsbD_other hother m)

/-! ### The two operations -/

/-- A handler of a live 602 is admitted to both operations (R69, R97). -/
theorem denial_shadowOperation {s : State} {i : Instr}
    (hi : i = .enterSupervisor ∨ i = .restoreFromSupervisor) (hs : s.asHandler)
    (hv : s.params.variant = .v602) : s.denial i = none := by
  obtain ⟨hq, hf⟩ := hs
  have hhost : s.issuer ≠ .host := by rw [hq]; decide
  have hlive : s.fatal ≠ true := by rw [hf]; decide
  have h602 : s.params.variant ≠ .v603 := by rw [hv]; decide
  rcases hi with rfl | rfl <;>
    exact denial_eq_none_of rfl (hq ▸ List.mem_singleton_self _) (fun h => absurd h hhost)
      (fun h => absurd h hlive) (fun _ => h602) (fun _ => rfl)

/-- ENTER_SUPERVISOR completes (R91). -/
theorem exec_enterSupervisor {s : State} (hs : s.asHandler) (hv : s.params.variant = .v602) :
    exec .enterSupervisor s = .next { s with
      msr := msrEntered s.params.layout s.msr
      esaShadow := packShadow s.params.layout s.msr
      response := .done [] } :=
  exec_admitted (denial_shadowOperation (.inl rfl) hs hv)

/-- RESTORE_FROM_SUPERVISOR completes (R92). -/
theorem exec_restoreFromSupervisor {s : State} (hs : s.asHandler)
    (hv : s.params.variant = .v602) :
    exec .restoreFromSupervisor s = .next { s with
      msr := msrRestored s.params.layout s.esaShadow s.msr
      response := .done [] } :=
  exec_admitted (denial_shadowOperation (.inr rfl) hs hv)

/-- Settles O25: the bits of `packShadow` and of `msrEntered`. -/
theorem enterSupervisorBitByBit : Obligations.EnterSupervisorBitByBit := by
  intro s hs hv hl
  obtain ⟨hee, hsa, hap, hpr⟩ := packShadow_bits s.params.layout s.msr
  have field (f : MsrField) := msrBit_msrEntered hl f s.msr
  exact ⟨_, exec_enterSupervisor hs hv, rfl, hpr, hap, hsa, hee,
    (field .ee).trans (by simp), (field .pr).trans (by simp), (field .ap).trans (by simp),
    (field .sa).trans (by simp), fun k hk => msrEntered_getLsbD_other hk s.msr⟩

/-- Settles O26: the bits of `msrRestored`. -/
theorem restoreFromSupervisorBitByBit : Obligations.RestoreFromSupervisorBitByBit := by
  intro s hs hv hl
  obtain ⟨hee, hsa, hap, hpr⟩ := msrBit_msrRestored hl s.esaShadow s.msr
  exact ⟨_, exec_restoreFromSupervisor hs hv, rfl, hee, hsa, hap, hpr,
    fun k hk => msrRestored_getLsbD_other hk s.esaShadow s.msr⟩

/-- Settles O27: the handler is still admitted after the first operation, and the two words that the
operations write cancel (`msrRestored_msrEntered`). -/
theorem supervisorRoundTrip : Obligations.SupervisorRoundTrip := by
  intro s hs hv hl
  refine ⟨_, _, exec_enterSupervisor hs hv, exec_restoreFromSupervisor hs hv, ?_⟩
  simp only [msrRestored_msrEntered hl]

end Sys2Proof.Machine
end

section
/-! PROOFS. The family of the exception dispatcher: the dispatch requests (O29, O30, O31), what an entry
masks and clears (O37, O38), and the fatal stop (O53, O60). -/

namespace Sys2Proof.Machine

open Sys2Proof

/-! ### The dispatch requests -/

/-- A dispatch request raises the code of its kind. -/
theorem effectOf_requestedKind {i : Instr} {K : ExcKind} (hi : requestedKind i = some K)
    (s : State) : effectOf i s = s.raiseAnswered (kindCode K) := by
  cases i <;> cases hi <;> rfl

/-- The sequencer of a live session is admitted to every dispatch request (R69, R74). -/
theorem denial_requestedKind {s : State} {i : Instr} {K : ExcKind} (hi : requestedKind i = some K)
    (hs : s.asSeq) : s.denial i = none := by
  obtain ⟨hq, hf⟩ := hs
  have hform : i.wf = true ∧ issuersOf i = [.seq] ∧ only602 i = false := by
    cases i <;> cases hi <;> exact ⟨rfl, rfl, rfl⟩
  obtain ⟨hwf, hseq, hboth⟩ := hform
  exact denial_eq_none_of hwf (by simp [hq, hseq]) (by simp [hq]) (by simp [hf]) (by simp [hboth])
    (by simp [hq])

/-- Both variants know the asynchronous kinds (R58). -/
theorem kindKnown_of_async {K : ExcKind} (h : kindAsync K = true) (v : Variant) :
    kindKnown v K = true := by
  cases K
  case irq | decrementer | smi => rfl
  all_goals exact absurd h (by decide)

theorem raiseAnswered_known {s : State} {K : ExcKind} (hk : kindKnown s.params.variant K = true) :
    s.raiseAnswered (kindCode K) = (s.dispatch K).answer [] := by
  rw [State.raiseAnswered, kindOfCode_kindCode, if_pos hk]

/-- A dispatch request for a known kind is the dispatch, answered without result words (R101, R191). -/
theorem exec_requestedKind {s : State} {i : Instr} {K : ExcKind} (hi : requestedKind i = some K)
    (hs : s.asSeq) (hk : kindKnown s.params.variant K = true) :
    exec i s = .next ((s.dispatch K).answer []) := by
  rw [exec_admitted (denial_requestedKind hi hs), effectOf_requestedKind hi, raiseAnswered_known hk]

/-! ### The gate -/

theorem gatedOff_of_sync {K : ExcKind} (h : kindAsync K = false) (s : State) :
    s.gatedOff K = false := by
  rw [State.gatedOff, h, Bool.false_and]

theorem gatedOff_of_enabled {s : State} (h : s.msrF .ee = true) (K : ExcKind) :
    s.gatedOff K = false := by
  rw [State.gatedOff, h, Bool.not_true, Bool.and_false]

/-- With EE = 0 an asynchronous kind changes nothing (R114). -/
theorem dispatch_of_masked {s : State} {K : ExcKind} (ha : kindAsync K = true)
    (h : s.msrF .ee = false) : s.dispatch K = s := by
  simp [State.dispatch, State.gatedOff, ha, h]

/-! ### The five writes of an entry -/

theorem srr0Of_async {K : ExcKind} (h : kindAsync K = true) (s : State) : s.srr0Of K = s.npc := by
  rw [State.srr0Of, if_pos h]

theorem srr0Of_sync {K : ExcKind} (h : kindAsync K = false) (s : State) : s.srr0Of K = s.pc := by
  rw [State.srr0Of, h, if_neg Bool.false_ne_true]

/-- Without a marker the saved status is the masked `msr` (R103). -/
theorem srr1Of_kindMarker {K : ExcKind} (h : K ≠ .trap) (m : Word) :
    srr1Of m (kindMarker K) = m &&& srr1Mask := by
  rw [kindMarker_eq, if_neg h, srr1Of]
  exact BitVec.or_zero

/-- The entry of an asynchronous kind (R102, R103). -/
theorem enter_async {K : ExcKind} (h : kindAsync K = true) (s : State) : s.enter K = { s with
    srr0 := s.npc
    srr1 := s.msr &&& srr1Mask
    msr := msrAfterEntry s.params.layout s.msr
    npc := s.vectorBase s.msr ||| kindOffset K
    interruptPending := s.interruptPending &&& ~~~kindClears s.params K } := by
  have hK : K ≠ .trap := by rintro rfl; exact absurd h (by decide)
  rw [State.enter, srr0Of_async h, srr1Of_kindMarker hK]

/-- An entry that clears no pending bit keeps the latch. -/
theorem latch_of_kindClears_zero {p : Params} {K : ExcKind} (h : kindClears p K = 0)
    (l : BitVec 3) : l &&& ~~~kindClears p K = l := by
  rw [h]
  exact BitVec.and_allOnes

/-- What DSI and ISI leave of the latch (R116). -/
theorem latch_of_storage {K : ExcKind} (hK : K = .dsi ∨ K = .isi) (p : Params) (l : BitVec 3) :
    l &&& ~~~kindClears p K = if p.dsiIsiClearsSmi then l &&& ~~~pendSmi else l := by
  have hc : kindClears p K = if p.dsiIsiClearsSmi then pendSmi else 0 := by
    rcases hK with rfl | rfl <;> rfl
  rw [hc]
  cases p.dsiIsiClearsSmi
  · exact BitVec.and_allOnes
  · rfl

/-- An asynchronous dispatch request with EE = 1 is the entry of its kind (R106, R107, R110). -/
theorem exec_async_enabled {s : State} {i : Instr} {K : ExcKind} (hi : requestedKind i = some K)
    (ha : kindAsync K = true) (hs : s.asSeq) (he : s.msrF .ee = true) : exec i s = .next { s with
      srr0 := s.npc
      srr1 := s.msr &&& srr1Mask
      msr := msrAfterEntry s.params.layout s.msr
      npc := s.vectorBase s.msr ||| kindOffset K
      interruptPending := s.interruptPending &&& ~~~kindClears s.params K
      response := .done [] } := by
  rw [exec_requestedKind hi hs (kindKnown_of_async ha _),
    dispatch_of_open (gatedOff_of_enabled he K), enter_async ha]
  rfl

/-- With EE = 0 it only answers (R114). -/
theorem exec_async_masked {s : State} {i : Instr} {K : ExcKind} (hi : requestedKind i = some K)
    (ha : kindAsync K = true) (hs : s.asSeq) (he : s.msrF .ee = false) :
    exec i s = .next { s with response := .done [] } := by
  rw [exec_requestedKind hi hs (kindKnown_of_async ha _), dispatch_of_masked ha he]
  rfl

/-- Settles O29: the two sides of the gate, at each of the three kinds. -/
theorem asynchronousDispatches : Obligations.AsynchronousDispatches := by
  intro s hs
  refine ⟨fun he => ⟨?_, ?_, ?_⟩, fun he => ⟨?_, ?_, ?_⟩⟩
  · exact exec_async_enabled (K := .irq) rfl rfl hs he
  · exact exec_async_enabled (K := .decrementer) rfl rfl hs he
  · exact exec_async_enabled (K := .smi) rfl rfl hs he
  · exact exec_async_masked (K := .irq) rfl rfl hs he
  · exact exec_async_masked (K := .decrementer) rfl rfl hs he
  · exact exec_async_masked (K := .smi) rfl rfl hs he

/-- A synchronous dispatch request for a known kind is the entry of its kind, whatever EE is
(R102, R108, R109). -/
theorem exec_sync {s : State} {i : Instr} {K : ExcKind} (hi : requestedKind i = some K)
    (ha : kindAsync K = false) (hs : s.asSeq) (hk : kindKnown s.params.variant K = true) :
    exec i s = .next { s with
      srr0 := s.pc
      srr1 := srr1Of s.msr (kindMarker K)
      msr := msrAfterEntry s.params.layout s.msr
      npc := s.vectorBase s.msr ||| kindOffset K
      interruptPending := s.interruptPending &&& ~~~kindClears s.params K
      response := .done [] } := by
  rw [exec_requestedKind hi hs hk, dispatch_of_open (gatedOff_of_sync ha s), State.enter,
    srr0Of_sync ha]
  rfl

/-- Settles O30: both are synchronous entries that clear no pending bit, and only TRAP has a marker. -/
theorem trapAndSyscallEntries : Obligations.TrapAndSyscallEntries := by
  intro s hs
  constructor
  · rw [exec_sync (K := .trap) rfl rfl hs rfl, latch_of_kindClears_zero rfl]
    rfl
  · rw [exec_sync (K := .syscall) rfl rfl hs rfl, latch_of_kindClears_zero rfl,
      srr1Of_kindMarker (by decide)]
    rfl

/-- Settles O31: both are synchronous entries without a marker, known on the 603. -/
theorem storageEntriesOn603 : Obligations.StorageEntriesOn603 := by
  intro s hs hv
  constructor
  · rw [exec_sync (K := .dsi) rfl rfl hs (by rw [hv]; rfl), latch_of_storage (.inl rfl),
      srr1Of_kindMarker (by decide)]
    rfl
  · rw [exec_sync (K := .isi) rfl rfl hs (by rw [hv]; rfl), latch_of_storage (.inr rfl),
      srr1Of_kindMarker (by decide)]
    rfl

/-! ### What an entry masks and clears -/

/-- EE is 0 after an entry (R63). -/
theorem msrF_ee_enter {s : State} (hl : s.params.layout.wf) (K : ExcKind) :
    (s.enter K).msrF .ee = false :=
  msrBit_msrAfterEntry_cleared hl (by decide) s.msr

/-- Settles O37: EE is 0 after the first entry, so the gate is closed to the asynchronous kinds; it
never stops a synchronous one. -/
theorem entryMasksAsynchronousKinds : Obligations.EntryMasksAsynchronousKinds := by
  intro s K J hl hg
  rw [dispatch_of_open hg]
  have hee := msrF_ee_enter hl K
  refine ⟨hee, fun hJ => dispatch_of_masked hJ hee, fun hJ => ?_⟩
  rw [dispatch_of_open (gatedOff_of_sync hJ (s.enter K)), State.enter_srr0, State.enter_srr1,
    srr0Of_sync hJ, srr1Of, kindMarker_eq]
  exact ⟨rfl, rfl⟩

/-- The bits of the latch an entry clears (R115, R116). -/
theorem kindClears_getLsbD (p : Params) (K : ExcKind) (k : Fin 3) :
    (kindClears p K).getLsbD k.val =
      decide ((K = .irq ∧ k = 0) ∨ (K = .decrementer ∧ k = 1) ∨ (K = .smi ∧ k = 2) ∨
        ((K = .dsi ∨ K = .isi) ∧ k = 2 ∧ p.dsiIsiClearsSmi = true)) := by
  unfold kindClears
  generalize p.dsiIsiClearsSmi = b
  cases K <;> revert k b <;> decide

/-- Settles O38: the latch is masked with the bits of `kindClears`. -/
theorem entryClearsItsOwnPendingBit : Obligations.EntryClearsItsOwnPendingBit := by
  intro s K k hg
  rw [dispatch_of_open hg, State.enter_interruptPending, BitVec.getLsbD_and, BitVec.getLsbD_not,
    kindClears_getLsbD, decide_eq_true k.isLt, Bool.true_and]

/-! ### The fatal stop -/

/-- The escape with an unknown kind is the abort, at the address of the instruction (R113, R172). -/
theorem escape_unknown {s : State} {k : Byte} (h : kindOfCode s.params.variant k = none) :
    s.escape k = State.abort { s with npc := s.pc } k := by
  rw [State.escape, State.raise, h]

/-- With budget left, a step of an invocation is an iteration (R157, R158). -/
theorem step_iterate {s : State} (hx : s.executing = true) (hb : s.budgetRemaining ≠ 0) :
    step s = .next s.iterate := by
  rw [step_executing hx, State.advance, if_neg hb]

/-- Settles O53: the iteration ends in the escape, and the escape in the abort. -/
theorem unknownRaiseStopsTheInvocation : Obligations.UnknownRaiseStopsTheInvocation := by
  intro s w k fs hs hx hb hk
  rw [step_iterate hx hb]
  refine ⟨fun hf hh => ?_, fun hf => ?_⟩
  · rw [iterate_raise hf hh]
    exact congrArg Host.Outcome.next (escape_unknown hk)
  · rw [iterate_fetch_raise hf]
    exact congrArg Host.Outcome.next (escape_unknown hk)

/-! ### What makes a session fatal -/

/-- `s` and `t` agree on the flag `fatal`, or `t` is the abort of `s` by an unknown kind (R113). -/
def AbortsOrKeepsFatal (s t : State) : Prop :=
  t.fatal = s.fatal ∨ ∃ k, kindOfCode s.params.variant k = none ∧ t = s.abort k

theorem AbortsOrKeepsFatal.abort {s t : State} (h : AbortsOrKeepsFatal s t)
    (ht : t.fatal = true) (hs : s.fatal = false) :
    ∃ k, kindOfCode s.params.variant k = none ∧ t = s.abort k :=
  h.resolve_left fun e => absurd ((ht.symm.trans e).trans hs) (by decide)

/-- The escape goes back to the instruction first (R163). -/
theorem escape_abortsOrKeepsFatal (s : State) (k : Byte) :
    AbortsOrKeepsFatal { s with npc := s.pc } (s.escape k) := by
  unfold State.escape
  rcases raise_cases { s with npc := s.pc } k with ⟨K, -, e⟩ | ⟨hk, e⟩ <;> rw [e]
  · exact .inl (sameControl_dispatch _ K).fatal
  · exact .inr ⟨k, hk, rfl⟩

theorem raiseAnswered_abortsOrKeepsFatal (s : State) (k : Byte) :
    AbortsOrKeepsFatal s (s.raiseAnswered k) := by
  rcases raiseAnswered_cases s k with ⟨K, -, e⟩ | ⟨hk, e⟩ <;> rw [e]
  · exact .inl (sameControl_dispatch s K).fatal
  · exact .inr ⟨k, hk, rfl⟩

/-- Of the operations only a dispatch request can touch the flag. -/
theorem effectOf_abortsOrKeepsFatal (i : Instr) (s : State) :
    AbortsOrKeepsFatal s (effectOf i s) := by
  cases i
  case excIrq | excDecrementer | excTrap | excSyscall | excSmi | excDsi | excIsi =>
    exact raiseAnswered_abortsOrKeepsFatal s _
  case reset | execute | stateSave | stateLoad | msrGet | msrSet | enterSupervisor |
      restoreFromSupervisor | tuArm => exact .inl rfl
  case regRead k => left; simp only [effectOf]; cases regOfIndex k <;> rfl
  case regWrite k v =>
    left
    simp only [effectOf]
    cases regOfIndex k with
    | none => rfl
    | some r => exact (sameControl_writeReg s r v).fatal
  case setIrqLine a => exact .inl (HandlerFrame.irqLine s a).sameControl.fatal
  case setSmiLine a => exact .inl (HandlerFrame.smiLine s a).sameControl.fatal
  case check => exact .inl (sameControl_checkPending s).fatal
  case tuTick => exact .inl (sameControl_tick s).fatal
  case tuCommit => exact .inl (sameControl_commit s).fatal

/-- An instruction that retires keeps the flag, whatever its effects. -/
theorem applyEffects_retire_fatal (s : State) (es : List Instr) :
    (s.applyEffects es).retire.fatal = s.fatal := calc
  (s.applyEffects es).retire.fatal = (s.applyEffects es).fatal :=
    (sameControl_checkPending _).fatal.trans (sameControl_tick _).fatal
  _ = s.fatal := (HandlerFrame.applyEffects es s).sameControl.fatal

/-- Between invocations a session becomes fatal only by the abort, with the request taken from the
port (R74). -/
theorem step_idle_fatal {s t : State} (hx : s.executing = false) (h : step s = .next t)
    (hs : s.fatal = false) (ht : t.fatal = true) :
    ∃ q rest k, kindOfCode s.params.variant k = none ∧
      t = State.abort { s with port := rest, issuer := q } k := by
  rcases step_idle_cases hx h with ⟨-, rfl⟩ | ⟨q, rest, rfl | ⟨k, -, rfl⟩ | ⟨i, -, rfl⟩⟩
  · exact absurd (hs.symm.trans ht) (by decide)
  · exact absurd (hs.symm.trans ht) (by decide)
  · exact ⟨q, rest, (raiseAnswered_abortsOrKeepsFatal _ k).abort ht hs⟩
  · exact ⟨q, rest, (effectOf_abortsOrKeepsFatal i _).abort ht hs⟩

/-- An iteration makes the session fatal only by the abort, with `pc` and `npc` at the instruction and
the calls of the collaborators (those of `u`) noted (R172). -/
theorem iterate_fatal {s : State} (hs : s.fatal = false) (ht : s.iterate.fatal = true) :
    ∃ (u : State) (k : Byte), kindOfCode s.params.variant k = none ∧
      s.iterate = State.abort { s with
        pc := s.npc
        lastFetch := u.lastFetch, fetchCount := u.fetchCount, fetchTape := u.fetchTape
        lastDispatch := u.lastDispatch, handlerCount := u.handlerCount
        handlerTape := u.handlerTape } k := by
  rcases iterate_cases s with ⟨k, tape, e⟩ | ⟨w, k, tape, tape', e⟩ | ⟨w, es, tape, tape', e⟩ <;>
    rw [e] at ht ⊢
  · exact ⟨{ s with lastFetch := _, fetchCount := _, fetchTape := _ },
      (escape_abortsOrKeepsFatal _ k).abort ht hs⟩
  · exact ⟨{ s with
      lastFetch := _, fetchCount := _, fetchTape := _
      lastDispatch := _, handlerCount := _, handlerTape := _ },
      (escape_abortsOrKeepsFatal _ k).abort ht hs⟩
  · exact absurd (((applyEffects_retire_fatal _ es).symm.trans ht).symm.trans hs) (by decide)

/-- The exit of an invocation keeps the flag, so in an invocation only an iteration can set it. -/
theorem step_executing_fatal {s t : State} (hx : s.executing = true) (h : step s = .next t)
    (hs : s.fatal = false) (ht : t.fatal = true) : t = s.iterate := by
  by_cases hb : s.budgetRemaining = 0
  · rw [step_executing hx, State.advance, if_pos hb] at h
    cases h
    have he : s.endInvocation.fatal = s.fatal := (sameControl_commit s).fatal
    exact absurd (hs.symm.trans (he.symm.trans ht)) (by decide)
  · cases (step_iterate hx hb).symm.trans h
    rfl

/-- Settles O60: the step ends in the abort, of an iteration (`iterate_fatal`) or of a request
(`step_idle_fatal`), and each conjunct is one element of that state. -/
theorem onlyAnUnknownKindIsFatal : Obligations.OnlyAnUnknownKindIsFatal := by
  intro s t h hs ht
  cases hx : s.executing with
  | true =>
    cases step_executing_fatal hx h hs ht
    obtain ⟨u, k, hk, e⟩ := iterate_fatal hs ht
    rw [e]
    exact ⟨hk, rfl, rfl, rfl, rfl, rfl, rfl, rfl, rfl, rfl, rfl, rfl, rfl, rfl, rfl, rfl, rfl⟩
  | false =>
    obtain ⟨q, rest, k, hk, rfl⟩ := step_idle_fatal hx h hs ht
    exact ⟨hk, rfl, rfl, rfl, rfl, rfl, rfl, rfl, rfl, rfl, rfl, rfl, rfl, rfl, rfl, rfl, rfl⟩

end Sys2Proof.Machine
end

section
/-! PROOFS. The family of the interrupt controller: the lines (O39), CHECK (O40, O41, O42), and how a
latched request is lost in an invocation (O56). -/

namespace Sys2Proof.Machine

open Sys2Proof

/-! ### A latched request is lost only by an entry -/

/-- How far `u` may be from `s` before an entry: the same instruction of the same invocation, with
every latched bit still set. -/
structure LatchFrame (s u : State) : Prop where
  params : u.params = s.params
  pc : u.pc = s.pc
  fatal : u.fatal = s.fatal
  executing : u.executing = s.executing
  latchGains : ∀ k, s.interruptPending.getLsbD k = true → u.interruptPending.getLsbD k = true

theorem LatchFrame.trans {s u v : State} (hsu : LatchFrame s u) (huv : LatchFrame u v) :
    LatchFrame s v where
  params := huv.params.trans hsu.params
  pc := huv.pc.trans hsu.pc
  fatal := huv.fatal.trans hsu.fatal
  executing := huv.executing.trans hsu.executing
  latchGains k hk := huv.latchGains k (hsu.latchGains k hk)

theorem LatchFrame.of_latch_eq {s u : State} (hp : u.params = s.params) (hpc : u.pc = s.pc)
    (hf : u.fatal = s.fatal) (hx : u.executing = s.executing)
    (hl : u.interruptPending = s.interruptPending) : LatchFrame s u :=
  ⟨hp, hpc, hf, hx, fun _ hk => by rw [hl]; exact hk⟩

theorem HandlerFrame.latchFrame {s t : State} (h : HandlerFrame s t) : LatchFrame s t :=
  ⟨h.keeps State.params rfl, h.keeps State.pc rfl, h.keeps State.fatal rfl,
    h.keeps State.executing rfl, h.latchGains⟩

/-- The trigger compare at most sets a bit (R140). -/
theorem tick_latchFrame (s : State) : LatchFrame s s.tick := by
  rcases tick_cases s with ⟨-, e⟩ | ⟨-, e⟩ <;> rw [e]
  · exact .of_latch_eq rfl rfl rfl rfl rfl
  · exact ⟨rfl, rfl, rfl, rfl, fun k hk => by simp only [BitVec.getLsbD_or, hk, Bool.true_or]⟩

/-- From `s` to `t` an entry is made, of a known kind that is not gated off, or no latched bit is
lost. -/
def EntersOrKeepsLatch (s t : State) : Prop :=
  (∃ (u : State) (K : ExcKind), LatchFrame s u ∧ u.gatedOff K = false ∧
      kindKnown u.params.variant K = true ∧ t = u.enter K) ∨
    ∀ k, s.interruptPending.getLsbD k = true → t.interruptPending.getLsbD k = true

theorem EntersOrKeepsLatch.of_latch_eq {s t : State}
    (h : t.interruptPending = s.interruptPending) : EntersOrKeepsLatch s t :=
  .inr fun _ hk => by rw [h]; exact hk

theorem LatchFrame.entersOrKeepsLatch {s u t : State} (h : LatchFrame s u)
    (ht : EntersOrKeepsLatch u t) : EntersOrKeepsLatch s t := by
  rcases ht with ⟨v, K, huv, hg, hk, e⟩ | hkeep
  · exact .inl ⟨v, K, h.trans huv, hg, hk, e⟩
  · exact .inr fun k hk => hkeep k (h.latchGains k hk)

/-- The escape is an entry, or leaves the latch alone (R163, R172). -/
theorem escape_entersOrKeepsLatch (s : State) (k : Byte) : EntersOrKeepsLatch s (s.escape k) := by
  rcases escape_cases s k with ⟨K, hk, ⟨-, e⟩ | ⟨hg, e⟩⟩ | ⟨-, e⟩ <;> rw [e]
  · exact .of_latch_eq rfl
  · have hknown := ((kindOfCode_eq_some_iff s.params.variant k K).1 hk).2
    exact .inl ⟨{ s with npc := s.pc }, K, .of_latch_eq rfl rfl rfl rfl rfl, hg, hknown, rfl⟩
  · exact .of_latch_eq rfl

theorem checkPending_entersOrKeepsLatch (s : State) : EntersOrKeepsLatch s s.checkPending := by
  rcases checkPending_cases s with e | ⟨K, he, -, e, ha⟩ <;> rw [e]
  · exact .of_latch_eq rfl
  · exact .inl ⟨s, K, .of_latch_eq rfl rfl rfl rfl rfl, gatedOff_of_enabled he K,
      kindKnown_of_async ha _, rfl⟩

/-- The end of an instruction: the compare, then the CHECK (R162, R165). -/
theorem retire_entersOrKeepsLatch (s : State) : EntersOrKeepsLatch s s.retire := by
  have spent : LatchFrame s { s with budgetRemaining := s.budgetRemaining - 1 } :=
    .of_latch_eq rfl rfl rfl rfl rfl
  exact (spent.trans (tick_latchFrame _)).entersOrKeepsLatch (checkPending_entersOrKeepsLatch _)

/-- An iteration executes the instruction at `npc`. -/
theorem iterate_entersOrKeepsLatch (s : State) :
    EntersOrKeepsLatch { s with pc := s.npc } s.iterate := by
  rcases iterate_cases s with ⟨k, tape, e⟩ | ⟨w, k, tape, tape', e⟩ | ⟨w, es, tape, tape', e⟩ <;>
    rw [e]
  · apply LatchFrame.entersOrKeepsLatch _ (escape_entersOrKeepsLatch _ k)
    exact .of_latch_eq rfl rfl rfl rfl rfl
  · apply LatchFrame.entersOrKeepsLatch _ (escape_entersOrKeepsLatch _ k)
    exact .of_latch_eq rfl rfl rfl rfl rfl
  · apply LatchFrame.entersOrKeepsLatch _ (retire_entersOrKeepsLatch _)
    apply LatchFrame.trans _ (HandlerFrame.applyEffects es _).latchFrame
    exact .of_latch_eq rfl rfl rfl rfl rfl

theorem commit_interruptPending (s : State) : s.commit.interruptPending = s.interruptPending := by
  unfold State.commit
  cases s.params.variant <;> rfl

theorem advance_entersOrKeepsLatch (s : State) :
    EntersOrKeepsLatch { s with pc := s.npc } s.advance := by
  unfold State.advance
  split
  · exact .of_latch_eq (commit_interruptPending s)
  · exact iterate_entersOrKeepsLatch s

/-! ### The entry that loses a bit -/

/-- A bit that an entry takes away is one that it clears. -/
theorem kindClears_of_lost {u : State} {K : ExcKind} {j : Fin 3}
    (hu : u.interruptPending.getLsbD j.val = true)
    (ht : (u.enter K).interruptPending.getLsbD j.val = false) :
    (kindClears u.params K).getLsbD j.val = true := by
  rw [State.enter_interruptPending, BitVec.getLsbD_and, BitVec.getLsbD_not, hu,
    decide_eq_true j.isLt] at ht
  simpa using ht

/-- The kinds that clear bit `j`, on a variant that knows them (R115, R116). -/
theorem kind_of_kindClears {p : Params} {K : ExcKind} {j : Fin 3}
    (h : (kindClears p K).getLsbD j.val = true) (hk : kindKnown p.variant K = true) :
    K = .irq ∧ j = 0 ∨ K = .decrementer ∧ j = 1 ∨ K = .smi ∧ j = 2 ∨
      (K = .dsi ∨ K = .isi) ∧ j = 2 ∧ p.dsiIsiClearsSmi = true ∧ p.variant = .v603 := by
  rw [kindClears_getLsbD] at h
  rcases of_decide_eq_true h with hi | hd | hs | ⟨hK, hj, hp⟩
  · exact .inl hi
  · exact .inr (.inl hd)
  · exact .inr (.inr (.inl hs))
  · have hv : p.variant = .v603 := by rcases hK with rfl | rfl <;> exact eq_of_beq hk
    exact .inr (.inr (.inr ⟨hK, hj, hp, hv⟩))

/-- No kind clears two bits. -/
theorem kindClears_eq_shift {p : Params} {K : ExcKind} {j : Fin 3}
    (h : (kindClears p K).getLsbD j.val = true) : kindClears p K = 1#3 <<< j.val := by
  unfold kindClears at h ⊢
  generalize p.dsiIsiClearsSmi = b at h ⊢
  revert h
  cases K <;> revert j b <;> decide

/-- TRAP clears no bit (R115). -/
theorem ne_trap_of_kindClears {p : Params} {K : ExcKind} {j : Fin 3}
    (h : (kindClears p K).getLsbD j.val = true) : K ≠ .trap := by
  rintro rfl
  exact Bool.false_ne_true ((BitVec.getLsbD_zero).symm.trans h)

/-- The vector of the kind is the same by the new `msr`, as an entry keeps IP (R63, R104). -/
theorem vectorBase_enter {s : State} (hl : s.params.layout.wf) (K : ExcKind) :
    (s.enter K).vectorBase (s.enter K).msr = s.vectorBase s.msr := by
  have hip : msrBit s.params.layout (msrAfterEntry s.params.layout s.msr) .ip =
      msrBit s.params.layout s.msr .ip := by
    refine msrAfterEntry_getLsbD_other (k := s.params.layout.index .ip) (fun f hf e => ?_) s.msr
    have hf' : f = .ip := ((layout_index_inj hl .ip f).1 (congrArg Fin.val e)).symm
    subst hf'
    exact absurd hf (by decide)
  unfold State.vectorBase
  rw [State.enter_params, State.enter_msr, hip]
  rfl

/-- The whole entry of a kind that clears bit `j` (R101 to R105). -/
theorem enter_of_kindClears {u : State} {K : ExcKind} {j : Fin 3}
    (h : (kindClears u.params K).getLsbD j.val = true) : u.enter K = { u with
      srr0 := if kindAsync K then u.npc else u.pc
      srr1 := u.msr &&& 0x0000ff73
      msr := msrAfterEntry u.params.layout u.msr
      npc := u.vectorBase u.msr ||| kindOffset K
      interruptPending := u.interruptPending &&& ~~~(1#3 <<< j.val) } := by
  rw [State.enter, srr1Of_kindMarker (ne_trap_of_kindClears h), kindClears_eq_shift h]
  rfl

/-- Settles O56: a step that loses a bit makes an entry (`advance_entersOrKeepsLatch`), and the bit
says of which kind. -/
theorem latchedIrqIsOnlyLostByItsEntry : Obligations.LatchedIrqIsOnlyLostByItsEntry := by
  intro s t j hl hx h hs ht
  cases (step_executing hx).symm.trans h
  rcases advance_entersOrKeepsLatch s with ⟨u, K, hu, hg, hk, e⟩ | hkeep
  · have hclears : (kindClears u.params K).getLsbD j.val = true :=
      kindClears_of_lost (hu.latchGains j.val hs) (e ▸ ht)
    have hp : u.params = s.params := hu.params
    have hlayout : u.params.layout = s.params.layout := congrArg Params.layout hp
    have hlu : u.params.layout.wf := by rw [hlayout]; exact hl
    have hkind := kind_of_kindClears hclears hk
    rw [hp] at hkind
    have hgate : kindAsync K = true → u.msrF .ee = true := by
      intro ha
      simpa [State.gatedOff, ha] using hg
    have hentry := enter_of_kindClears hclears
    rw [hlayout] at hentry
    refine ⟨u, K, hkind, hp, hu.pc, hu.fatal, hu.executing.trans hx, hu.latchGains, hgate,
      e.trans hentry, ?_, ?_⟩
    · rw [e]; exact msrF_ee_enter hlu K
    · rw [e, vectorBase_enter hlu, State.enter_npc]
  · exact absurd ((hkeep j.val hs).symm.trans ht) (by decide)

/-! ### CHECK -/

/-- The sequencer of a live session is admitted to CHECK, which then answers without result words
(R69, R123). -/
theorem exec_check {s : State} (hs : s.asSeq) :
    exec .check s = .next (s.checkPending.answer []) := by
  obtain ⟨hq, hf⟩ := hs
  have hd : s.denial .check = none :=
    denial_eq_none_of rfl (hq ▸ List.mem_singleton_self _) (by simp [hq]) (by simp [hf])
      (fun h => nomatch h) (by simp [hq])
  exact exec_admitted hd

/-- With EE = 0, CHECK does nothing (R126). -/
theorem checkPending_of_masked {s : State} (h : s.msrF .ee = false) : s.checkPending = s := by
  rw [State.checkPending, h, if_neg Bool.false_ne_true]

/-- Without a pending kind, CHECK does nothing (R123). -/
theorem checkPending_of_none {s : State} (h : pendingKind s.interruptPending = none) :
    s.checkPending = s := by
  rw [State.checkPending, h, ite_self]

/-- With EE = 1, CHECK dispatches the pending kind (R123). -/
theorem checkPending_of_some {s : State} {K : ExcKind} (he : s.msrF .ee = true)
    (h : pendingKind s.interruptPending = some K) : s.checkPending = s.dispatch K := by
  rw [State.checkPending, he, if_pos rfl, h]

/-- Settles O40: the branches of `pendingKind`, each a dispatch request of its kind. -/
theorem checkDispatchesByPriority : Obligations.CheckDispatchesByPriority := by
  intro s hs
  rw [exec_check hs, exec_requestedKind (K := .irq) rfl hs rfl,
    exec_requestedKind (K := .decrementer) rfl hs rfl, exec_requestedKind (K := .smi) rfl hs rfl]
  cases he : s.msrF .ee with
  | false => rw [checkPending_of_masked he]; rfl
  | true =>
    rw [if_neg Bool.false_ne_true.symm]
    split_ifs with hirq hdec hsmi
    · rw [checkPending_of_some (K := .irq) he (if_pos hirq)]
    · rw [checkPending_of_some (K := .decrementer) he
        ((if_neg hirq).trans (if_pos hdec))]
    · rw [checkPending_of_some (K := .smi) he
        ((if_neg hirq).trans ((if_neg hdec).trans (if_pos hsmi)))]
    · rw [checkPending_of_none ((if_neg hirq).trans ((if_neg hdec).trans (if_neg hsmi)))]
      rfl

theorem pendingKind_eq_none_iff (l : BitVec 3) : pendingKind l = none ↔ l = 0 := by
  revert l; decide

/-- The fixed order is from the lowest bit up, and an entry of the pending kind clears that bit
(R115, R124). -/
theorem kindClears_of_pendingKind {l : BitVec 3} {K : ExcKind} (h : pendingKind l = some K)
    (p : Params) : kindClears p K = l &&& -l := by
  have hne : l ≠ 0 := fun e => by rw [(pendingKind_eq_none_iff l).2 e] at h; cases h
  rw [pendingKind_of_ne_zero l hne] at h
  cases h
  split_ifs with hirq hdec
  · show pendIrq = l &&& -l
    revert l; decide
  · show pendDecrementer = l &&& -l
    revert l; decide
  · show pendSmi = l &&& -l
    revert l; decide

/-- The table of R130 with EE = 1: every row of the latch loses its lowest bit. -/
theorem latch_without_lowest (l : BitVec 3) : l &&& ~~~(l &&& -l) =
    if l = 0b011#3 then 0b010#3 else if l = 0b101#3 then 0b100#3
    else if l = 0b110#3 then 0b100#3 else if l = 0b111#3 then 0b110#3 else 0b000#3 := by
  revert l; decide

/-- Settles O41: nothing with EE = 0 or an empty latch; else one entry, which clears the lowest bit
and EE. -/
theorem checkTable : Obligations.CheckTable := by
  intro s hs hl
  refine ⟨_, exec_check hs, ?_⟩
  cases he : s.msrF .ee with
  | false => rw [checkPending_of_masked he]; exact ⟨rfl, he⟩
  | true =>
    rw [if_neg Bool.false_ne_true.symm, ← latch_without_lowest]
    cases hk : pendingKind s.interruptPending with
    | none =>
      have hz := (pendingKind_eq_none_iff _).1 hk
      rw [checkPending_of_none hk, hz]
      exact ⟨hz, he⟩
    | some K =>
      have hne : s.interruptPending ≠ 0#3 := fun e => by
        rw [(pendingKind_eq_none_iff _).2 e] at hk; cases hk
      rw [checkPending_of_some he hk, dispatch_of_open (gatedOff_of_enabled he K),
        ← kindClears_of_pendingKind hk s.params, decide_eq_false hne]
      exact ⟨rfl, msrF_ee_enter hl K⟩

/-- At most one: an entry leaves EE clear, so a second check finds the gate closed (R125). -/
theorem checkPending_idem {s : State} (hl : s.params.layout.wf) :
    s.checkPending.checkPending = s.checkPending := by
  rcases checkPending_cases s with e | ⟨K, -, -, e, -⟩ <;> rw [e]
  · exact e
  · exact checkPending_of_masked (msrF_ee_enter hl K)

/-- CHECK does not look at the answer of the port. -/
theorem checkPending_answer (s : State) (ws : List Word) :
    (s.answer ws).checkPending = s.checkPending.answer ws := by
  cases he : s.msrF .ee with
  | false => rw [checkPending_of_masked he, checkPending_of_masked (s := s.answer ws) he]
  | true =>
    cases hk : pendingKind s.interruptPending with
    | none => rw [checkPending_of_none hk, checkPending_of_none (s := s.answer ws) hk]
    | some K =>
      rw [checkPending_of_some he hk, checkPending_of_some (s := s.answer ws) he hk,
        dispatch_of_open (gatedOff_of_enabled he K),
        dispatch_of_open (gatedOff_of_enabled (s := s.answer ws) he K)]
      rfl

theorem checkPending_asSeq {s : State} (hs : s.asSeq) : s.checkPending.asSeq := by
  rcases checkPending_cases s with e | ⟨K, -, -, e, -⟩ <;> rw [e] <;> exact hs

/-- Settles O42: a second check is the check of an answered state, and does nothing
(`checkPending_idem`). -/
theorem secondCheckDoesNothing : Obligations.SecondCheckDoesNothing := by
  intro s t hs hl h
  cases (exec_check hs).symm.trans h
  have ht : (s.checkPending.answer []).asSeq := checkPending_asSeq hs
  rw [exec_check ht, checkPending_answer, checkPending_idem hl]
  rfl

/-! ### The lines -/

/-- A handler, or the host between invocations, is admitted to the line operations of a live session
(R69, R72). -/
theorem denial_lineOperation {s : State} {i : Instr} {a : Bool}
    (hi : i = .setIrqLine a ∨ i = .setSmiLine a) (hq : s.issuer ≠ .seq) (hw : s.hostWaits)
    (hf : s.fatal = false) : s.denial i = none := by
  have hmem : s.issuer ∈ [Issuer.host, .handler] := by
    revert hq
    cases s.issuer <;> decide
  rcases hi with rfl | rfl <;>
    exact denial_eq_none_of rfl hmem hw (fun h => absurd (hf.symm.trans h) (by decide))
      (fun h => nomatch h) (fun _ => rfl)

/-- One notification, if a callback is installed (R128). -/
theorem notify_eq (s : State) : s.notify = { s with
    notices := if s.params.callbackInstalled then
      s.notices ++ [⟨s.params.device, s.params.irqNumber⟩] else s.notices } := by
  unfold State.notify
  split_ifs <;> rfl

/-- Settles O39: the four operations are admitted, and only the activating IRQ call notifies. -/
theorem lineOperations : Obligations.LineOperations := by
  intro s hq hw hf
  refine ⟨?_, ?_, ?_, ?_⟩
  · rw [exec_admitted (denial_lineOperation (.inl rfl) hq hw hf)]
    show Host.Outcome.next ((State.notify _).answer []) = _
    rw [notify_eq]
    rfl
  · exact exec_admitted (denial_lineOperation (.inl rfl) hq hw hf)
  · exact exec_admitted (denial_lineOperation (.inr rfl) hq hw hf)
  · exact exec_admitted (denial_lineOperation (.inr rfl) hq hw hf)

end Sys2Proof.Machine
end

section
/-! PROOFS. The family of the timing unit: the three operations (O43, O44, O45), the sentinel (O16), the
carried fraction of the 603 (O46), and the interrupt at the trigger's boundary (O54). -/

namespace Sys2Proof.Machine

open Sys2Proof

/-! ### Who is admitted -/

/-- The sequencer of a live session is admitted to every well-formed operation of its own that both
variants have (R69). -/
theorem denial_seqOperation {s : State} {i : Instr} (hs : s.asSeq) (hwf : i.wf = true)
    (hseq : issuersOf i = [.seq]) (hboth : only602 i = false) : s.denial i = none := by
  obtain ⟨hq, hf⟩ := hs
  exact denial_eq_none_of hwf (by simp [hq, hseq]) (by simp [hq]) (by simp [hf]) (by simp [hboth])
    (by simp [hq])

/-! ### TU_ARM -/

/-- The unsigned difference wraps above the decrementer exactly when the budget exceeds it (R137). -/
theorem sub_gt_self_iff (dec budget : Word) :
    dec - budget > dec ↔ dec.toNat < budget.toNat := by
  bv_omega

theorem arm_eq (s : State) (budget : Word) : s.arm budget = { s with
    icountStart := budget
    triggerOffset :=
      if s.decrementer.toNat < budget.toNat then triggerOffsetOf s.params s.decrementer budget
      else triggerSentinel } := by
  simp only [State.arm, sub_gt_self_iff]

/-- Settles O43: the operation is admitted for every operand, and arms as `arm_eq` says. -/
theorem armPredictsTheUnderflow : Obligations.ArmPredictsTheUnderflow := by
  intro s n hs
  rw [exec_admitted (denial_seqOperation (i := .tuArm n) hs rfl rfl rfl)]
  show Host.Outcome.next ((s.arm n).answer []) = _
  rw [arm_eq]
  rfl

/-! ### TU_TICK -/

theorem tick_eq (s : State) : s.tick = { s with
    interruptPending :=
      if s.consumed = s.triggerOffset then s.interruptPending ||| pendDecrementer
      else s.interruptPending } := by
  rcases tick_cases s with ⟨hne, e⟩ | ⟨heq, e⟩
  · rw [e, if_neg hne]
  · rw [e, if_pos heq]

/-- Settles O44: the operation is admitted, and ticks as `tick_eq` says. -/
theorem tickSetsTheBitAtTheTrigger : Obligations.TickSetsTheBitAtTheTrigger := by
  intro s hs
  rw [exec_admitted (denial_seqOperation (i := .tuTick) hs rfl rfl rfl)]
  show Host.Outcome.next (s.tick.answer []) = _
  rw [tick_eq]
  rfl

/-- In a sound invocation the running counter is at most `BUDGET_MAX` (R29, R156). -/
theorem consumed_le_budgetMax {s : State} (hs : s.sound) (hx : s.executing = true) :
    s.consumed.toNat ≤ Config.budgetMax.toNat := by
  obtain ⟨-, hbudget, -⟩ := hs
  obtain ⟨hle, hmax⟩ := hbudget hx
  have hsub : s.consumed.toNat = s.icountStart.toNat - s.budgetRemaining.toNat :=
    BitVec.toNat_sub_of_le (BitVec.le_def.2 hle)
  omega

/-- Settles O16: the sentinel is the first value above `BUDGET_MAX`. -/
theorem sentinelIsNeverReached : Obligations.SentinelIsNeverReached := by
  intro s hs hx
  have hne : s.consumed ≠ triggerSentinel := by
    intro e
    have hle := consumed_le_budgetMax hs hx
    rw [e] at hle
    exact absurd hle (by decide)
  refine ⟨hne, fun htrigger => ?_⟩
  rcases tick_cases s with ⟨-, e⟩ | ⟨heq, -⟩
  · exact e
  · exact absurd (heq.trans htrigger) hne

/-! ### TU_COMMIT -/

/-- On the 602 the remainder is dropped (R142). -/
theorem commit_602 {s : State} (hv : s.params.variant = .v602) : s.commit = { s with
    timebase := s.timebase + BitVec.ofNat 32 (s.consumed.toNat / 4)
    decrementer :=
      s.decrementer - BitVec.ofNat 32 (s.consumed.toNat / Params.divisor s.params) } := by
  rw [State.commit, hv]

/-- On the 603 it is carried in `dec_fraction` (R143). -/
theorem commit_603 {s : State} (hv : s.params.variant = .v603) : s.commit = { s with
    timebase := s.timebase + BitVec.ofNat 32 (s.consumed.toNat / 4)
    decrementer := s.decrementer -
      BitVec.ofNat 32 ((s.consumed.toNat + s.decFraction.toNat) / Params.divisor s.params)
    decFraction :=
      BitVec.ofNat 32 ((s.consumed.toNat + s.decFraction.toNat) % Params.divisor s.params) } := by
  rw [State.commit, hv]

/-- Settles O45: one equation of `State.commit` for each variant. -/
theorem commitOnBothVariants : Obligations.CommitOnBothVariants := by
  intro s hs
  rw [exec_admitted (denial_seqOperation (i := .tuCommit) hs rfl rfl rfl)]
  refine ⟨fun hv => ?_, fun hv => ?_⟩
  · show Host.Outcome.next (s.commit.answer []) = _
    rw [commit_602 hv]
    rfl
  · show Host.Outcome.next (s.commit.answer []) = _
    rw [commit_603 hv]
    rfl

/-! ### The carried fraction -/

/-- Carrying the remainder of `x` into the division of `y` gives the quotient of the sum. -/
theorem div_add_div_of_carry (x y : Nat) {d : Nat} (hd : 0 < d) :
    x / d + (y + x % d) / d = (x + y) / d := by
  have hsum : x + y = (y + x % d) + d * (x / d) := by
    have := Nat.mod_add_div x d
    omega
  rw [hsum, Nat.add_mul_div_left _ _ hd, Nat.add_comm]

theorem divisor_pos {p : Params} (h : p.wf) : 0 < Params.divisor p := by
  obtain ⟨-, hmult, -⟩ := h
  exact Nat.mul_pos hmult Nat.two_pos

/-- A remainder by the divisor fits a word (R136). -/
theorem toNat_ofNat_mod_divisor {p : Params} (h : p.wf) (n : Nat) :
    (BitVec.ofNat 32 (n % Params.divisor p)).toNat = n % Params.divisor p := by
  have hrem := Nat.mod_lt n (divisor_pos h)
  obtain ⟨-, -, hfits⟩ := h
  rw [BitVec.toNat_ofNat, Nat.mod_eq_of_lt (hrem.trans hfits)]

/-- The commit of an exit after `n` units (R166). -/
def State.exitAfter (s : State) (n : Word) : State :=
  State.commit { s with icountStart := n, budgetRemaining := 0 }

theorem exitAfter_params (s : State) (n : Word) : (s.exitAfter n).params = s.params :=
  (sameControl_commit _).params

/-- On the 603 the decrementer takes the quotient, and `dec_fraction` the remainder, of `n` and the old
fraction (R143). -/
theorem exitAfter_603 {s : State} (hv : s.params.variant = .v603) (n : Word) :
    s.exitAfter n = { s with
      icountStart := n
      budgetRemaining := 0
      timebase := s.timebase + BitVec.ofNat 32 (n.toNat / 4)
      decrementer := s.decrementer -
        BitVec.ofNat 32 ((n.toNat + s.decFraction.toNat) / Params.divisor s.params)
      decFraction :=
        BitVec.ofNat 32 ((n.toNat + s.decFraction.toNat) % Params.divisor s.params) } := by
  have hconsumed : State.consumed { s with icountStart := n, budgetRemaining := 0 } = n :=
    BitVec.sub_zero n
  rw [State.exitAfter, commit_603, hconsumed]
  exact hv

/-- The new fraction is the remainder, not cut off to a word. -/
theorem exitAfter_decFraction {s : State} (hp : s.params.wf) (hv : s.params.variant = .v603)
    (n : Word) : (s.exitAfter n).decFraction.toNat =
      (n.toNat + s.decFraction.toNat) % Params.divisor s.params := by
  rw [exitAfter_603 hv, toNat_ofNat_mod_divisor hp]

/-- Two exits of the 603 take the decrementer down as far as one with the sum would. -/
theorem exitAfter_exitAfter_decrementer {s : State} (hp : s.params.wf)
    (hv : s.params.variant = .v603) (a b : Word) :
    ((s.exitAfter a).exitAfter b).decrementer = s.decrementer -
      BitVec.ofNat 32 ((a.toNat + b.toNat + s.decFraction.toNat) / Params.divisor s.params) := by
  have ht := exitAfter_params s a
  calc ((s.exitAfter a).exitAfter b).decrementer
    _ = (s.exitAfter a).decrementer - BitVec.ofNat 32
          ((b.toNat + (s.exitAfter a).decFraction.toNat) / Params.divisor s.params) := by
      rw [exitAfter_603 (ht ▸ hv) b, ht]
    _ = s.decrementer - BitVec.ofNat 32
          ((a.toNat + s.decFraction.toNat) / Params.divisor s.params +
            (b.toNat + (a.toNat + s.decFraction.toNat) % Params.divisor s.params) /
              Params.divisor s.params) := by
      rw [exitAfter_decFraction hp hv, exitAfter_603 hv, BitVec.sub_sub, ← BitVec.ofNat_add]
    _ = _ := by
      rw [div_add_div_of_carry _ _ (divisor_pos hp), Nat.add_right_comm]

/-- And they leave the same fraction. -/
theorem exitAfter_exitAfter_decFraction {s : State} (hp : s.params.wf)
    (hv : s.params.variant = .v603) (a b : Word) :
    ((s.exitAfter a).exitAfter b).decFraction.toNat =
      (a.toNat + b.toNat + s.decFraction.toNat) % Params.divisor s.params := by
  have ht := exitAfter_params s a
  rw [exitAfter_decFraction (ht ▸ hp) (ht ▸ hv), ht, exitAfter_decFraction hp hv, Nat.add_mod_mod,
    Nat.add_left_comm, Nat.add_assoc]

/-- Settles O46: the two exits of the statement are `State.exitAfter`, and each fraction is a
remainder by the divisor. -/
theorem carriedFractionLosesNoTick : Obligations.CarriedFractionLosesNoTick := by
  intro s a b hp hv
  refine ⟨exitAfter_exitAfter_decrementer hp hv a b, exitAfter_exitAfter_decFraction hp hv a b, ?_⟩
  exact (exitAfter_decFraction hp hv a).trans_lt (Nat.mod_lt _ (divisor_pos hp))

/-! ### The boundary of the trigger -/

/-- Without an IRQ, the bit the trigger sets is the one CHECK dispatches (R124). -/
theorem pendingKind_decrementer {l : BitVec 3} (h : l.getLsbD 0 = false) :
    pendingKind (l ||| pendDecrementer) = some .decrementer := by
  revert l; decide

/-- Its entry then leaves only the SMI bit (R115). -/
theorem latch_after_decrementer {l : BitVec 3} (h : l.getLsbD 0 = false) (p : Params) :
    (l ||| pendDecrementer) &&& ~~~kindClears p .decrementer = l &&& 0x4#3 := by
  show (l ||| pendDecrementer) &&& ~~~pendDecrementer = l &&& 0x4#3
  revert l; decide

/-- An instruction that reaches the trigger with EE = 1 and no IRQ pending ends in the entry of
DECREMENTER (R140, R165). -/
theorem retire_at_trigger {s : State} (he : s.msrF .ee = true)
    (hirq : s.interruptPending.getLsbD 0 = false)
    (htrigger : s.icountStart - (s.budgetRemaining - 1) = s.triggerOffset) :
    s.retire = State.enter { s with
      budgetRemaining := s.budgetRemaining - 1
      interruptPending := s.interruptPending ||| pendDecrementer } .decrementer := by
  rw [retire_eq, if_pos htrigger, checkPending_of_some (K := .decrementer), dispatch_of_open]
  · exact gatedOff_of_enabled he .decrementer
  · exact he
  · exact pendingKind_decrementer hirq

/-- Settles O54: the iteration ends in that entry, which returns to the next instruction. -/
theorem decrementerTakenAtItsBoundary : Obligations.DecrementerTakenAtItsBoundary := by
  intro s w fs hs hx hb hfetch hhandler he hirq htrigger
  have hentry := (iterate_resume hfetch hhandler).trans (retire_at_trigger he hirq htrigger)
  rw [enter_async rfl] at hentry
  refine ⟨_, step_iterate hx hb, ?_⟩
  rw [hentry]
  exact ⟨rfl, rfl, rfl, latch_after_decrementer hirq s.params, rfl⟩

end Sys2Proof.Machine
end

section
/-! PROOFS. The family of the execution loop: the entry of an invocation (O18), what an iteration keeps
(O47), the effects of a handler (O49), the instruction that retires (O50) or is aborted (O51, O52), the
exit (O57), and a whole quiet invocation (O58). -/

namespace Sys2Proof.Machine

open Sys2Proof

/-! ### The entry -/

/-- The host of a live session is admitted to EXECUTE between invocations, with a budget in range (R69,
R72, R156). -/
theorem denial_execute {s : State} {n : Word} (hs : s.asHost)
    (hn : n.toNat ≤ Config.budgetMax.toNat) : s.denial (.execute n) = none := by
  obtain ⟨hq, hx, hf⟩ := hs
  have hwf : (Instr.execute n).wf = true := by
    simp [Instr.wf, Instr.defect, Nat.not_lt.2 hn]
  exact denial_eq_none_of hwf (hq ▸ List.mem_singleton_self _) (fun _ => hx) (by simp [hf])
    (fun h => nomatch h) (by simp [hq])

/-- Settles O18: the operation is admitted, and E3 arms the timing unit as `arm_eq` says. -/
theorem executeEntersTheInvocation : Obligations.ExecuteEntersTheInvocation := by
  intro s n hs hn
  rw [exec_admitted (denial_execute hs hn)]
  exact congrArg Host.Outcome.next (arm_eq _ n)

/-! ### What an iteration keeps -/

/-- `s`, with the elements that the rest of an instruction may change once its collaborators have been
called: those that are open to a handler, which an entry writes too, and those of the fatal stop
(R101, R113, R170). -/
def State.withOutcomeOf (s t : State) : State :=
  { s.withOpenOf t with
    fatal := t.fatal
    fatalKind := t.fatalKind
    executing := t.executing
    response := t.response }

/-- From `s` to `t` only such elements change. -/
def OutcomeFrame (s t : State) : Prop := t = s.withOutcomeOf t

namespace OutcomeFrame

/-- What the frame says of one element `f` that the rest of an instruction leaves alone. -/
theorem keeps {α : Type} {s t : State} (h : OutcomeFrame s t) (f : State → α)
    (hf : f (s.withOutcomeOf t) = f s) : f t = f s :=
  (congrArg f h).trans hf

theorem trans {s t u : State} (hst : OutcomeFrame s t) (htu : OutcomeFrame t u) :
    OutcomeFrame s u := calc
  u = t.withOutcomeOf u := htu
  _ = (s.withOutcomeOf t).withOutcomeOf u := congrArg (State.withOutcomeOf · u) hst
  _ = s.withOutcomeOf u := rfl

theorem escape (s : State) (k : Byte) : OutcomeFrame s (s.escape k) := by
  rcases escape_cases s k with ⟨K, -, ⟨-, e⟩ | ⟨-, e⟩⟩ | ⟨-, e⟩ <;> rw [e] <;> rfl

theorem applyEffects (es : List Instr) (s : State) : OutcomeFrame s (s.applyEffects es) := by
  have h := HandlerFrame.applyEffects es s
  rw [h.closed]
  rfl

theorem tick (s : State) : OutcomeFrame s s.tick := by
  rw [tick_eq]
  rfl

theorem checkPending (s : State) : OutcomeFrame s s.checkPending := by
  rcases checkPending_cases s with e | ⟨K, -, -, e, -⟩ <;> rw [e] <;> rfl

/-- The end of an instruction spends one unit (R162). -/
theorem retire (s : State) :
    OutcomeFrame { s with budgetRemaining := s.budgetRemaining - 1 } s.retire :=
  (tick _).trans (checkPending _)

/-- The same after the effects of its handler, which do not touch the budget. -/
theorem applyEffects_retire (s : State) (es : List Instr) :
    OutcomeFrame { s with budgetRemaining := s.budgetRemaining - 1 }
      (s.applyEffects es).retire := by
  have h := applyEffects es s
  refine trans ?_ (retire (s.applyEffects es))
  rw [h.keeps State.budgetRemaining rfl]
  exact congrArg (fun t : State => { t with budgetRemaining := s.budgetRemaining - 1 }) h

/-- An iteration: the calls of the collaborators are noted, at most one of them the handler's, and at
most one unit is spent; what it does beyond that is the outcome of its instruction. -/
theorem iterate (s : State) : ∃ (u : State) (n : Nat) (b : Word),
    (n = s.handlerCount ∨ n = s.handlerCount + 1) ∧
    (b = s.budgetRemaining ∨ b = s.budgetRemaining - 1) ∧
    OutcomeFrame { s with
      pc := s.npc
      lastFetch := some ⟨s.npc, s.msrF .ir⟩, fetchCount := s.fetchCount + 1
      fetchTape := u.fetchTape
      lastDispatch := u.lastDispatch, handlerCount := n, handlerTape := u.handlerTape
      budgetRemaining := b } s.iterate := by
  rcases iterate_cases s with ⟨k, tape, e⟩ | ⟨w, k, tape, tape', e⟩ | ⟨w, es, tape, tape', e⟩ <;>
    rw [e]
  · exact ⟨{ s with fetchTape := tape }, _, _, .inl rfl, .inl rfl, escape _ k⟩
  · exact ⟨{ s with fetchTape := tape, lastDispatch := _, handlerTape := tape' }, _, _, .inr rfl,
      .inl rfl, escape _ k⟩
  · exact ⟨{ s with fetchTape := tape, lastDispatch := _, handlerTape := tape' }, _, _, .inr rfl,
      .inr rfl, applyEffects_retire _ es⟩

end OutcomeFrame

/-- Settles O47: each conjunct is one element of the frame `OutcomeFrame.iterate`. -/
theorem iterationFrame : Obligations.IterationFrame := by
  intro s t hx hb h
  cases (step_iterate hx hb).symm.trans h
  obtain ⟨u, n, b, hn, hspent, hframe⟩ := OutcomeFrame.iterate s
  have hcalls := hframe.keeps State.handlerCount rfl
  have hbudget := hframe.keeps State.budgetRemaining rfl
  exact ⟨hframe.keeps State.pc rfl, hframe.keeps State.lastFetch rfl,
    hframe.keeps State.fetchCount rfl, hn.imp hcalls.trans hcalls.trans,
    hspent.imp hbudget.trans hbudget.trans, hframe.keeps State.decrementer rfl,
    hframe.keeps State.timebase rfl, hframe.keeps State.decFraction rfl,
    hframe.keeps State.icountStart rfl, hframe.keeps State.triggerOffset rfl,
    hframe.keeps State.params rfl, hframe.keeps State.port rfl, hframe.keeps State.issuer rfl⟩

/-! ### The effects of a handler -/

/-- An effect that R73 refuses, or that is none of a handler's, changes nothing (R170). -/
theorem applyEffect_eq_self_of {s : State} {e : Instr}
    (h : Issuer.handler ∈ issuersOf e → State.denial { s with issuer := .handler } e ≠ none) :
    s.applyEffect e = s := by
  by_cases hm : Issuer.handler ∈ issuersOf e
  · obtain ⟨d, hd⟩ := Option.ne_none_iff_exists'.1 (h hm)
    exact applyEffect_denied hd
  · exact applyEffect_of_not_handler hm

/-- The clauses of R73 and R170 by which an effect is skipped. -/
theorem applyEffect_skipped {s : State} {e : Instr}
    (h : (e = .enterSupervisor ∨ e = .restoreFromSupervisor) ∧ s.params.variant = .v603 ∨
      (∃ k v, e = .regWrite k v ∧ k ∉ [1#8, 3#8, 4#8, 10#8, 11#8]) ∨
      e.wf = false ∨ Issuer.handler ∉ issuersOf e) : s.applyEffect e = s := by
  refine applyEffect_eq_self_of fun hm hd => ?_
  obtain ⟨hwf, -, h602, hopen⟩ := (effect_denial_eq_none_iff hm).1 hd
  rcases h with ⟨he, hv⟩ | ⟨k, v, rfl, hk⟩ | hbad | hnot
  · have ho : only602 e = true := by rcases he with rfl | rfl <;> rfl
    exact h602 ho hv
  · exact hk (index_of_not_closedToHandler hopen)
  · exact absurd (hbad.symm.trans hwf) (by decide)
  · exact hnot hm

/-- A read is answered to the handler and writes nothing. -/
theorem applyEffect_read {s : State} {e : Instr} (h : e = .msrGet ∨ ∃ k, e = .regRead k) :
    s.applyEffect e = s := by
  rcases applyEffect_cases s e with heq | ⟨v, he, -⟩ | ⟨he, -⟩ | ⟨he, -⟩ | ⟨k, v, r, he, -⟩ |
    ⟨he, -⟩ | ⟨he, -⟩
  · exact heq
  all_goals
    subst he
    rcases h with h | ⟨j, h⟩ <;> cases h

/-- Every effect of R170's table, but for the shadow operations, is admitted in a live session. -/
theorem applyEffect_live {s : State} {e : Instr} (hf : s.fatal = false)
    (hm : Issuer.handler ∈ issuersOf e) (hwf : e.wf = true) (hboth : only602 e = false)
    (hopen : closedToHandler e = false) :
    s.applyEffect e =
      { effectOf e { s with issuer := .handler } with issuer := s.issuer, response := s.response } :=
  applyEffect_admitted hm ((effect_denial_eq_none_iff hm).2
    ⟨hwf, fun h => absurd (hf.symm.trans h) (by decide), fun h => absurd (hboth.symm.trans h)
      (by decide), hopen⟩)

theorem applyEffect_msrSet {s : State} (hf : s.fatal = false) (v : Word) :
    s.applyEffect (.msrSet v) = { s with msr := v } :=
  applyEffect_live hf (.tail _ (.head _)) rfl rfl rfl

/-- An index that names a register is in range (R70, R73 d). -/
theorem regWrite_wf_of_regOfIndex {k : Byte} {r : Reg} (h : regOfIndex k = some r) (v : Word) :
    (Instr.regWrite k v).wf = true := by
  have hrange : ∀ k : Byte, (regOfIndex k).isSome = true → k.toNat ≤ 11 := by decide
  simp [Instr.wf, Instr.defect, Nat.not_lt.2 (hrange k (Option.isSome_of_eq_some h))]

/-- A handler's REG_WRITE of a register that is open to it (R170). -/
theorem applyEffect_regWrite {s : State} (hf : s.fatal = false) {k : Byte} {r : Reg}
    (hk : regOfIndex k = some r) (hr : handlerMayWrite r = true) (v : Word) :
    s.applyEffect (.regWrite k v) = s.writeReg r v := by
  have hopen : closedToHandler (.regWrite k v) = false := by simp [closedToHandler, hk, hr]
  rw [applyEffect_live hf (.tail _ (.head _)) (regWrite_wf_of_regOfIndex hk v) rfl hopen]
  simp only [effectOf, hk]
  cases r <;> rfl

/-- The active line sets its bit and notifies (R121, R131). -/
theorem applyEffect_setIrqLine_true {s : State} (hf : s.fatal = false) :
    s.applyEffect (.setIrqLine true) = { s with
      interruptPending := s.interruptPending ||| pendIrq
      notices := if s.params.callbackInstalled then
        s.notices ++ [⟨s.params.device, s.params.irqNumber⟩] else s.notices } := by
  rw [applyEffect_live hf (.tail _ (.head _)) rfl rfl rfl]
  simp only [effectOf, State.irqLine, if_true, notify_eq]
  rfl

theorem applyEffect_setIrqLine_false {s : State} (hf : s.fatal = false) :
    s.applyEffect (.setIrqLine false) = s :=
  applyEffect_live hf (.tail _ (.head _)) rfl rfl rfl

theorem applyEffect_setSmiLine_true {s : State} (hf : s.fatal = false) :
    s.applyEffect (.setSmiLine true) =
      { s with interruptPending := s.interruptPending ||| pendSmi } :=
  applyEffect_live hf (.tail _ (.head _)) rfl rfl rfl

theorem applyEffect_setSmiLine_false {s : State} (hf : s.fatal = false) :
    s.applyEffect (.setSmiLine false) = s :=
  applyEffect_live hf (.tail _ (.head _)) rfl rfl rfl

/-- An iteration from the tapes: the effects are applied, then one unit is spent, the trigger compared
and CHECK made (R161, R162, R165). -/
theorem step_resume {s : State} {w : Word} {es : List Instr} {fs : List FetchAnswer}
    {hs : List HandlerAnswer} (hx : s.executing = true) (hb : s.budgetRemaining ≠ 0)
    (hf : s.fetchTape = .word w :: fs) (hh : s.handlerTape = .resume es :: hs) :
    let u := State.applyEffects { s with
      pc := s.npc, npc := s.npc + 4
      lastFetch := some ⟨s.npc, s.msrF .ir⟩, fetchCount := s.fetchCount + 1, fetchTape := fs
      lastDispatch := some ⟨tableIndexOf w, w⟩, handlerCount := s.handlerCount + 1
      handlerTape := hs } es
    step s = .next (State.checkPending { u with
      budgetRemaining := s.budgetRemaining - 1
      interruptPending :=
        if s.icountStart - (s.budgetRemaining - 1) = s.triggerOffset then
          u.interruptPending ||| pendDecrementer else u.interruptPending }) := by
  intro u
  have hu : HandlerFrame _ u := HandlerFrame.applyEffects es _
  rw [step_iterate hx hb, iterate_resume hf hh, retire_eq, hu.keeps State.budgetRemaining rfl,
    hu.keeps State.icountStart rfl, hu.keeps State.triggerOffset rfl]

/-- Settles O49: each clause is the lemma for its effects; the last is `step_resume`. -/
theorem refusedEffectsAreSkipped : Obligations.RefusedEffectsAreSkipped := by
  intro s e es
  have rest {e' : Instr} {t : State} (h : s.applyEffect e' = t) :
      s.applyEffects (e' :: es) = t.applyEffects es := by rw [applyEffects_cons, h]
  refine ⟨fun hm => ?_, fun hf v => ?_, fun hf hv => ⟨?_, ?_⟩, fun h => rest (applyEffect_read h),
    fun h => rest (applyEffect_skipped h), fun w fs hs hx hb hfetch hhandler =>
      step_resume hx hb hfetch hhandler⟩
  · exact ⟨_, exec_eq e _, rest (applyEffect_of_exec hm (exec_eq e _))⟩
  · exact ⟨rest (applyEffect_regWrite hf (r := .npc) rfl rfl v), rest (applyEffect_msrSet hf v),
      rest (applyEffect_regWrite hf (r := .srr0) rfl rfl v),
      rest (applyEffect_regWrite hf (r := .srr1) rfl rfl v),
      rest (applyEffect_regWrite hf (r := .ibr) rfl rfl v),
      rest (applyEffect_regWrite hf (r := .hid0) rfl rfl v),
      rest (applyEffect_setIrqLine_true hf), rest (applyEffect_setIrqLine_false hf),
      rest (applyEffect_setSmiLine_true hf), rest (applyEffect_setSmiLine_false hf)⟩
  · have hexec := exec_enterSupervisor (s := { s with issuer := .handler }) ⟨rfl, hf⟩ hv
    exact ⟨_, hexec, rfl, rest (applyEffect_of_exec (List.mem_singleton_self _) hexec)⟩
  · have hexec := exec_restoreFromSupervisor (s := { s with issuer := .handler }) ⟨rfl, hf⟩ hv
    exact ⟨_, hexec, rfl, rest (applyEffect_of_exec (List.mem_singleton_self _) hexec)⟩

/-! ### The instruction that retires, and the one that is aborted -/

/-- Settles O50: the iteration of `step_resume` with the empty list of effects. -/
theorem plainInstructionRetires : Obligations.PlainInstructionRetires := by
  intro s w fs hs hx hb hf hh
  exact step_resume hx hb hf hh

/-- The escape with a known kind is its dispatch, at the address of the instruction (R163). -/
theorem escape_known {s : State} {k : Byte} {K : ExcKind}
    (h : kindOfCode s.params.variant k = some K) :
    s.escape k = State.dispatch { s with npc := s.pc } K := by
  rw [State.escape, State.raise, h]

/-- A synchronous kind is entered, whatever EE is (R114). -/
theorem escape_sync {s : State} {k : Byte} {K : ExcKind}
    (h : kindOfCode s.params.variant k = some K) (ha : kindAsync K = false) :
    s.escape k = { s with
      npc := s.vectorBase s.msr ||| kindOffset K
      srr0 := s.pc
      srr1 := (s.msr &&& 0x0000ff73) ||| (if K = .trap then 0x00020000 else 0)
      msr := msrAfterEntry s.params.layout s.msr
      interruptPending := s.interruptPending &&& ~~~kindClears s.params K } := by
  rw [escape_known h, dispatch_of_open (gatedOff_of_sync ha _), State.enter, srr0Of_sync ha,
    kindMarker_eq]
  rfl

/-- An asynchronous kind that is gated off sends the loop back to the instruction (R114, R163). -/
theorem escape_async_masked {s : State} {k : Byte} {K : ExcKind}
    (h : kindOfCode s.params.variant k = some K) (ha : kindAsync K = true)
    (he : s.msrF .ee = false) : s.escape k = { s with npc := s.pc } :=
  (escape_known h).trans (dispatch_of_masked ha he)

/-- With EE = 1 it is entered, and returns to the instruction (R102, R163). -/
theorem escape_async_enabled {s : State} {k : Byte} {K : ExcKind}
    (h : kindOfCode s.params.variant k = some K) (ha : kindAsync K = true)
    (he : s.msrF .ee = true) : s.escape k = { s with
      npc := s.vectorBase s.msr ||| kindOffset K
      srr0 := s.pc
      srr1 := s.msr &&& 0x0000ff73
      msr := msrAfterEntry s.params.layout s.msr
      interruptPending := s.interruptPending &&& ~~~kindClears s.params K } := by
  have hopen : State.gatedOff { s with npc := s.pc } K = false := gatedOff_of_enabled he K
  rw [escape_known h, dispatch_of_open hopen, enter_async ha]
  rfl

/-- A raise of the handler, from the tapes: the iteration is the escape (R163). -/
theorem step_raise {s : State} {w : Word} {k : Byte} {fs : List FetchAnswer}
    {hs : List HandlerAnswer} (hx : s.executing = true) (hb : s.budgetRemaining ≠ 0)
    (hf : s.fetchTape = .word w :: fs) (hh : s.handlerTape = .raise k :: hs) :
    step s = .next (State.escape { s with
      pc := s.npc, npc := s.npc + 4
      lastFetch := some ⟨s.npc, s.msrF .ir⟩, fetchCount := s.fetchCount + 1, fetchTape := fs
      lastDispatch := some ⟨tableIndexOf w, w⟩, handlerCount := s.handlerCount + 1
      handlerTape := hs } k) := by
  rw [step_iterate hx hb, iterate_raise hf hh]

/-- A raise of the fetch, from the tape (R169). -/
theorem step_fetch_raise {s : State} {k : Byte} {fs : List FetchAnswer}
    (hx : s.executing = true) (hb : s.budgetRemaining ≠ 0) (hf : s.fetchTape = .raise k :: fs) :
    step s = .next (State.escape { s with
      pc := s.npc, lastFetch := some ⟨s.npc, s.msrF .ir⟩, fetchCount := s.fetchCount + 1
      fetchTape := fs } k) := by
  rw [step_iterate hx hb, iterate_fetch_raise hf]

/-- Settles O51: the escape with a synchronous kind, after both calls and after the fetch alone. -/
theorem synchronousRaiseAborts : Obligations.SynchronousRaiseAborts := by
  intro s w k K fs hs hx hb hk ha
  refine ⟨fun hf hh => ?_, fun hf => ?_⟩
  · exact (step_raise hx hb hf hh).trans (congrArg Host.Outcome.next (escape_sync hk ha))
  · exact (step_fetch_raise hx hb hf).trans (congrArg Host.Outcome.next (escape_sync hk ha))

/-- Settles O52: the two sides of the gate, after both calls and after the fetch alone. -/
theorem gatedRaiseRetriesTheInstruction : Obligations.GatedRaiseRetriesTheInstruction := by
  intro s w k K fs hs hx hb hk ha byHandler byFetch
  refine ⟨fun he => ⟨fun hf hh => ?_, fun hf => ?_⟩, fun he => ⟨fun hf hh => ?_, fun hf => ?_⟩⟩
  · exact (step_raise hx hb hf hh).trans
      (congrArg Host.Outcome.next (escape_async_masked hk ha he))
  · exact (step_fetch_raise hx hb hf).trans
      (congrArg Host.Outcome.next (escape_async_masked hk ha he))
  · exact (step_raise hx hb hf hh).trans
      (congrArg Host.Outcome.next (escape_async_enabled hk ha he))
  · exact (step_fetch_raise hx hb hf).trans
      (congrArg Host.Outcome.next (escape_async_enabled hk ha he))

/-! ### The exit -/

/-- With the budget used up, a step of an invocation is the exit (R157, R166). -/
theorem step_exit {s : State} (hx : s.executing = true) (hb : s.budgetRemaining = 0) :
    step s = .next s.endInvocation := by
  rw [step_executing hx, State.advance, if_pos hb]

/-- The whole budget has then been consumed (R29). -/
theorem consumed_of_exit {s : State} (hb : s.budgetRemaining = 0) :
    s.consumed = s.icountStart := by
  rw [State.consumed, hb]
  exact BitVec.sub_zero s.icountStart

/-- Settles O57: the commit of each variant (`commit_602`, `commit_603`) with all consumed. -/
theorem exitCommitsAndAnswers : Obligations.ExitCommitsAndAnswers := by
  intro s hx hb
  refine ⟨_, step_exit hx hb, ?_⟩
  rw [State.endInvocation]
  cases hv : s.params.variant with
  | v602 =>
    rw [commit_602 hv, consumed_of_exit hb]
    exact ⟨rfl, rfl, rfl, fun _ => ⟨rfl, rfl⟩, (fun h => nomatch h), rfl⟩
  | v603 =>
    rw [commit_603 hv, consumed_of_exit hb]
    exact ⟨rfl, rfl, rfl, (fun h => nomatch h), fun _ => ⟨rfl, rfl⟩, rfl⟩

/-! ### A quiet invocation -/

/-- An invocation with `n` units left, EE = 0, and `n` words and `n` answers without effects ready
before `fs` and `hs`. -/
structure Quiet (n : Nat) (s : State) (fs : List FetchAnswer) (hs : List HandlerAnswer) :
    Prop where
  sound : s.sound
  executing : s.executing = true
  masked : s.msrF .ee = false
  budget : s.budgetRemaining.toNat = n
  words : ∃ ws : List Word, ws.length = n ∧ s.fetchTape = ws.map .word ++ fs
  answers : s.handlerTape = List.replicate n (.resume []) ++ hs

/-- The trigger lies ahead of the running counter, within the budget (R140). -/
abbrev State.triggerAhead (s : State) : Prop :=
  s.consumed.toNat < s.triggerOffset.toNat ∧ s.triggerOffset.toNat ≤ s.icountStart.toNat

/-- The latch at the end of a quiet invocation. -/
def State.quietLatch (s : State) : BitVec 3 :=
  if s.triggerAhead then s.interruptPending ||| pendDecrementer else s.interruptPending

/-- `t` is where the quiet invocation of `s` ends. -/
structure QuietEnd (n : Nat) (s t : State) (fs : List FetchAnswer) (hs : List HandlerAnswer) :
    Prop where
  executing : t.executing = false
  response : t.response = .done [s.icountStart]
  npc : t.npc = s.npc + BitVec.ofNat 32 (4 * n)
  msr : t.msr = s.msr
  srr0 : t.srr0 = s.srr0
  srr1 : t.srr1 = s.srr1
  fetchCount : t.fetchCount = s.fetchCount + n
  handlerCount : t.handlerCount = s.handlerCount + n
  timebase : t.timebase = s.timebase + BitVec.ofNat 32 (s.icountStart.toNat / 4)
  fetchTape : t.fetchTape = fs
  handlerTape : t.handlerTape = hs
  latch : t.interruptPending = s.quietLatch

/-- `s` after the instruction `w` without effects, with the answers `fs` and `hs` left (R161, R162). -/
def State.afterPlain (s : State) (w : Word) (fs : List FetchAnswer) (hs : List HandlerAnswer) :
    State :=
  { s with
    pc := s.npc
    npc := s.npc + 4
    budgetRemaining := s.budgetRemaining - 1
    interruptPending :=
      if s.icountStart - (s.budgetRemaining - 1) = s.triggerOffset then
        s.interruptPending ||| pendDecrementer else s.interruptPending
    lastFetch := some ⟨s.npc, s.msrF .ir⟩
    fetchCount := s.fetchCount + 1
    fetchTape := fs
    lastDispatch := some ⟨tableIndexOf w, w⟩
    handlerCount := s.handlerCount + 1
    handlerTape := hs }

/-- With EE = 0 the CHECK of such an instruction does nothing (R126). -/
theorem step_afterPlain {s : State} {w : Word} {fs : List FetchAnswer} {hs : List HandlerAnswer}
    (hx : s.executing = true) (hee : s.msrF .ee = false) (hb : s.budgetRemaining ≠ 0)
    (hf : s.fetchTape = .word w :: fs) (hh : s.handlerTape = .resume [] :: hs) :
    step s = .next (s.afterPlain w fs hs) :=
  (step_resume hx hb hf hh).trans
    (congrArg Host.Outcome.next (checkPending_of_masked (s := s.afterPlain w fs hs) hee))

/-- One unit further the trigger is reached, or still lies ahead. -/
theorem triggerAhead_iff_spend {start left trigger : Word} (hb : left ≠ 0)
    (hle : left.toNat ≤ start.toNat) :
    (start - left).toNat < trigger.toNat ∧ trigger.toNat ≤ start.toNat ↔
      start - (left - 1) = trigger ∨
        (start - (left - 1)).toNat < trigger.toNat ∧ trigger.toNat ≤ start.toNat := by
  have hnow : (start - left).toNat = start.toNat - left.toNat := by bv_omega
  have hnext : (start - (left - 1)).toNat = start.toNat - left.toNat + 1 := by bv_omega
  have hpos : left.toNat ≠ 0 := by bv_omega
  rw [hnow, ← BitVec.toNat_inj, hnext]
  omega

/-- So the latch at the end is the same, seen from one instruction further. -/
theorem quietLatch_afterPlain {s : State} (hb : s.budgetRemaining ≠ 0)
    (hle : s.budgetRemaining.toNat ≤ s.icountStart.toNat) (w : Word) (fs : List FetchAnswer)
    (hs : List HandlerAnswer) : (s.afterPlain w fs hs).quietLatch = s.quietLatch := by
  have hiff := triggerAhead_iff_spend (trigger := s.triggerOffset) hb hle
  simp only [State.quietLatch, State.triggerAhead, State.consumed, State.afterPlain, hiff]
  by_cases hreached : s.icountStart - (s.budgetRemaining - 1) = s.triggerOffset
  · simp only [hreached, if_true, true_or, BitVec.or_assoc, BitVec.or_self, ite_self]
  · simp only [hreached, if_false, false_or]

/-- A quiet invocation with budget left makes an instruction and is quiet again. -/
theorem Quiet.step {n : Nat} {s : State} {fs : List FetchAnswer} {hs : List HandlerAnswer}
    (h : Quiet (n + 1) s fs hs) :
    s.budgetRemaining ≠ 0 ∧ ∃ w fs' hs',
      Machine.step s = .next (s.afterPlain w fs' hs') ∧ Quiet n (s.afterPlain w fs' hs') fs hs := by
  obtain ⟨hsound, hx, hee, hbudget, ⟨ws, hlen, hf⟩, hh⟩ := h
  have hb : s.budgetRemaining ≠ 0 := fun e => by simp [e] at hbudget
  obtain ⟨w, ws, rfl⟩ := List.exists_cons_of_length_eq_add_one hlen
  have hstep := step_afterPlain hx hee hb hf hh
  refine ⟨hb, w, _, _, hstep, stepKeepsTheStateSound _ _ hsound hstep, hx, hee, ?_,
    ⟨ws, Nat.succ.inj hlen, rfl⟩, rfl⟩
  show (s.budgetRemaining - 1).toNat = n
  bv_omega

/-- What the end of an invocation is, seen from one instruction further, it is from here. -/
theorem QuietEnd.of_afterPlain {n : Nat} {s t : State} {w : Word} {fs fs' : List FetchAnswer}
    {hs hs' : List HandlerAnswer} (hb : s.budgetRemaining ≠ 0)
    (hle : s.budgetRemaining.toNat ≤ s.icountStart.toNat)
    (h : QuietEnd n (s.afterPlain w fs' hs') t fs hs) : QuietEnd (n + 1) s t fs hs where
  executing := h.executing
  response := h.response
  npc := by
    rw [h.npc, Nat.mul_succ, Nat.add_comm, BitVec.ofNat_add, ← BitVec.add_assoc]
    rfl
  msr := h.msr
  srr0 := h.srr0
  srr1 := h.srr1
  fetchCount := h.fetchCount.trans (Nat.add_right_comm s.fetchCount 1 n)
  handlerCount := h.handlerCount.trans (Nat.add_right_comm s.handlerCount 1 n)
  timebase := h.timebase
  fetchTape := h.fetchTape
  handlerTape := h.handlerTape
  latch := h.latch.trans (quietLatch_afterPlain hb hle w fs' hs')

/-- Without budget left the exit is the end. -/
theorem Quiet.exit {s : State} {fs : List FetchAnswer} {hs : List HandlerAnswer}
    (h : Quiet 0 s fs hs) : ∃ t, Machine.step s = .next t ∧ QuietEnd 0 s t fs hs := by
  obtain ⟨-, hx, -, hbudget, ⟨ws, hlen, hf⟩, hh⟩ := h
  have hb : s.budgetRemaining = 0 := BitVec.eq_of_toNat_eq hbudget
  obtain rfl := List.length_eq_zero_iff.1 hlen
  obtain ⟨t, hstep, hend, hanswer, htimebase, -, -, hframe⟩ := exitCommitsAndAnswers s hx hb
  have hlatch : s.quietLatch = s.interruptPending := by
    refine if_neg ?_
    rw [State.triggerAhead, consumed_of_exit hb]
    exact fun ⟨hlt, hle⟩ => Nat.not_lt.2 hle hlt
  have keeps {α : Type} (f : State → α) := congrArg f hframe
  exact ⟨t, hstep, hend, hanswer, (keeps State.npc).trans (BitVec.add_zero s.npc).symm,
    keeps State.msr, keeps State.srr0, keeps State.srr1, keeps State.fetchCount,
    keeps State.handlerCount, htimebase, (keeps State.fetchTape).trans hf,
    (keeps State.handlerTape).trans hh, (keeps State.interruptPending).trans hlatch.symm⟩

/-- The induction on the budget: an instruction, then the rest of the invocation. -/
theorem Quiet.run {n : Nat} {s : State} {fs : List FetchAnswer} {hs : List HandlerAnswer}
    (h : Quiet n s fs hs) :
    ∃ t, Host.Core.run Sys2Proof.core (n + 1) s = .next t ∧ QuietEnd n s t fs hs := by
  induction n generalizing s with
  | zero =>
    obtain ⟨t, hstep, hend⟩ := h.exit
    exact ⟨t, run_succ hstep 0, hend⟩
  | succ n ih =>
    obtain ⟨hb, w, fs', hs', hstep, hquiet⟩ := h.step
    obtain ⟨t, hrun, hend⟩ := ih hquiet
    obtain ⟨-, hbudget, -⟩ := h.sound
    obtain ⟨hle, -⟩ := hbudget h.executing
    exact ⟨t, (run_succ hstep (n + 1)).trans hrun, hend.of_afterPlain hb hle⟩

/-- Settles O58: the hypotheses are `Quiet`, and `Quiet.run` gives the end, element by element. -/
theorem quietInvocationRunsToItsEnd : Obligations.QuietInvocationRunsToItsEnd := by
  intro n s ws fs hs hsound hx hee hbudget hlen hf hh
  have hquiet : Quiet n s fs hs := ⟨hsound, hx, hee, hbudget, ⟨ws, hlen, hf⟩, hh⟩
  obtain ⟨t, hrun, hend⟩ := hquiet.run
  exact ⟨t, hrun, hend.executing, hend.response, hend.npc, hend.msr, hend.srr0, hend.srr1,
    hend.fetchCount, hend.handlerCount, hend.timebase, hend.fetchTape, hend.handlerTape,
    hend.latch⟩

end Sys2Proof.Machine
end

section
/-! PROOFS. The family of the host interface: the state after reset (O14), RESET (O17), the state image
(O19, O20) and its round trip (O21), and the registers by index (O22, O23). -/

namespace Sys2Proof.Machine

open Sys2Proof

/-! ### Reset -/

/-- The spec's ranges of the parameters hold of the defaults (R7, R16). -/
theorem defaultParams_wf : Config.defaultParams.wf := by decide

/-- Settles O14: after reset no invocation is in progress, so only the parameters matter. -/
theorem resetStateIsSound : Obligations.ResetStateIsSound :=
  IdleAfter.sound (s := State.reset) ⟨rfl, rfl⟩ defaultParams_wf

/-- The host is admitted between invocations to every well-formed operation of its own that both
variants have; in a fatal session R30 must allow it (R69, R72). -/
theorem denial_hostOperation {s : State} {i : Instr} (hq : s.issuer = .host)
    (hx : s.executing = false) (hwf : i.wf = true) (hhost : issuersOf i = [.host])
    (hboth : only602 i = false) (hf : s.fatal = true → admittedWhenFatal i = true) :
    s.denial i = none :=
  denial_eq_none_of hwf (by simp [hq, hhost]) (fun _ => hx) hf (by simp [hboth]) (by simp [hq])

/-- Settles O17: the operation is admitted, and then does its whole effect. -/
theorem resetWritesFiveElements : Obligations.ResetWritesFiveElements := by
  intro s ⟨hq, hx, hf⟩
  exact exec_admitted (denial_hostOperation hq hx rfl rfl rfl (by simp [hf]))

/-! ### The state image -/

theorem exec_stateSave {s : State} (hq : s.issuer = .host) (hx : s.executing = false) :
    exec .stateSave s = .next (s.answer (imageWords s.image)) :=
  exec_admitted (denial_hostOperation hq hx rfl rfl rfl fun _ => rfl)

theorem exec_stateLoad {s : State} (hs : s.asHost) (m : Image) :
    exec (.stateLoad m) s = .next ((s.loadImage m).answer []) := by
  obtain ⟨hq, hx, hf⟩ := hs
  exact exec_admitted (denial_hostOperation hq hx rfl rfl rfl (by simp [hf]))

/-- Settles O19: the words of the image are the eleven elements in the order of R71. -/
theorem stateSaveAnswersElevenWords : Obligations.StateSaveAnswersElevenWords :=
  fun _ hq hx => exec_stateSave hq hx

/-- Settles O20: `State.loadImage` is these eleven writes. -/
theorem stateLoadReplacesElevenElements : Obligations.StateLoadReplacesElevenElements :=
  fun _ m hs => exec_stateLoad hs m

/-- The words of an image after the command word of STATE_LOAD are that operation's encoding. -/
theorem decode_imageWords (m : Image) :
    decode (0x04000000 :: imageWords m) = .instr (.stateLoad m) :=
  decodeOfEncodeIsTheInstruction (.stateLoad m) [] rfl

/-- An image loads its own elements back: the narrow ones were zero-extended, so keeping their low bits
loses nothing (R70, R71). -/
theorem loadImage_image (s t : State) : t.loadImage s.image = { t with
    pc := s.pc, npc := s.npc, msr := s.msr, srr0 := s.srr0, srr1 := s.srr1
    decrementer := s.decrementer, timebase := s.timebase, decFraction := s.decFraction
    interruptPending := s.interruptPending, esaShadow := s.esaShadow, hid0 := s.hid0 } := by
  have latch : (s.interruptPending.setWidth 32).setWidth 3 = s.interruptPending := by simp
  have shadow : (s.esaShadow.setWidth 32).setWidth 4 = s.esaShadow := by simp
  simp only [State.loadImage, State.image, State.readReg, latch, shadow]

/-- Settles O21: the answered words are those of the image of `s`, which decode to its STATE_LOAD
(`decode_imageWords`), which restores the elements (`loadImage_image`). -/
theorem savedImageLoadsBack : Obligations.SavedImageLoadsBack := by
  intro s t u ws hq hx ht hsave hanswer
  cases (exec_stateSave hq hx).symm.trans hsave
  cases hanswer
  refine ⟨s.image, _, decode_imageWords s.image, exec_stateLoad ht s.image, ?_⟩
  rw [loadImage_image]
  exact ⟨rfl, rfl, rfl, rfl, rfl, rfl, rfl, rfl, rfl, rfl, rfl⟩

/-! ### The registers by index -/

theorem mem_host_handler_of_ne_seq {q : Issuer} (h : q ≠ .seq) : q ∈ [Issuer.host, .handler] := by
  revert h
  cases q <;> decide

/-- The host between invocations and a handler are admitted to REG_READ of every register, in a fatal
session too (R30, R184). -/
theorem exec_regRead {s : State} (hq : s.issuer ≠ .seq) (hw : s.hostWaits) {k : Byte} {r : Reg}
    (hk : regOfIndex k = some r) : exec (.regRead k) s = .next (s.answer [s.readReg r]) := by
  have hwf : (Instr.regRead k).wf = true := regWrite_wf_of_regOfIndex hk 0
  have hmem : s.issuer ∈ issuersOf (.regRead k) := mem_host_handler_of_ne_seq hq
  rw [exec_admitted (denial_eq_none_of hwf hmem hw (fun _ => rfl) (fun h => nomatch h)
    (fun _ => rfl))]
  simp only [effectOf, hk]

/-- The host between invocations, and a handler if the register is open to it, are admitted to
REG_WRITE in a live session (R170, R185). -/
theorem exec_regWrite {s : State} (hq : s.issuer ≠ .seq) (hw : s.hostWaits) (hf : s.fatal = false)
    {k : Byte} {r : Reg} (hk : regOfIndex k = some r)
    (hopen : s.issuer = .handler → handlerMayWrite r = true) (v : Word) :
    exec (.regWrite k v) s = .next ((s.writeReg r v).answer []) := by
  have hmem : s.issuer ∈ issuersOf (.regWrite k v) := mem_host_handler_of_ne_seq hq
  have hclosed : s.issuer = .handler → closedToHandler (.regWrite k v) = false := fun h => by
    simp [closedToHandler, hk, hopen h]
  rw [exec_admitted (denial_eq_none_of (regWrite_wf_of_regOfIndex hk v) hmem hw (by simp [hf])
    (fun h => nomatch h) hclosed)]
  simp only [effectOf, hk]

/-- Settles O22: each index names its element. -/
theorem regReadAnswersTheElement : Obligations.RegReadAnswersTheElement := by
  intro s hq hw
  have read (k : Byte) (r : Reg) (hk : regOfIndex k = some r) := exec_regRead hq hw hk
  exact ⟨read 0 .pc rfl, read 1 .npc rfl, read 2 .msr rfl, read 3 .srr0 rfl, read 4 .srr1 rfl,
    read 5 .decrementer rfl, read 6 .timebase rfl, read 7 .decFraction rfl,
    read 8 .interruptPending rfl, read 9 .esaShadow rfl, read 10 .hid0 rfl, read 11 .ibr rfl⟩

/-- Settles O23: the host may write the element of every index, and a handler five of them. -/
theorem regWriteReplacesTheElement : Obligations.RegWriteReplacesTheElement := by
  intro s v
  constructor
  · intro ⟨hq, hx, hf⟩
    have write (k : Byte) (r : Reg) (hk : regOfIndex k = some r) :=
      exec_regWrite (by simp [hq]) (fun _ => hx) hf hk (by simp [hq]) v
    exact ⟨write 0 .pc rfl, write 1 .npc rfl, write 2 .msr rfl, write 3 .srr0 rfl,
      write 4 .srr1 rfl, write 5 .decrementer rfl, write 6 .timebase rfl, write 7 .decFraction rfl,
      write 8 .interruptPending rfl, write 9 .esaShadow rfl, write 10 .hid0 rfl,
      write 11 .ibr rfl⟩
  · intro ⟨hq, hf⟩
    have write (k : Byte) (r : Reg) (hk : regOfIndex k = some r) (hr : handlerMayWrite r = true) :=
      exec_regWrite (by simp [hq]) (by simp [State.hostWaits, hq]) hf hk (fun _ => hr) v
    exact ⟨write 1 .npc rfl rfl, write 3 .srr0 rfl rfl, write 4 .srr1 rfl rfl,
      write 10 .hid0 rfl rfl, write 11 .ibr rfl rfl⟩

end Sys2Proof.Machine
end

section
/-! PROOFS. The family of the exceptions: the return that a handler makes by its effects (O55). -/

namespace Sys2Proof.Machine

open Sys2Proof

/-- The effects of the return put the new `msr` and the target in force, and write nothing else
(R170, R205). -/
theorem applyEffects_returnEffects {s : State} (hf : s.fatal = false) (v a : Word) :
    s.applyEffects (returnEffects v a) = { s with msr := v, npc := a } := by
  have htarget : State.applyEffect { s with msr := v } (.regWrite 1 a) =
      { s with msr := v, npc := a } :=
    applyEffect_regWrite (s := { s with msr := v }) (r := .npc) hf rfl rfl a
  rw [returnEffects, applyEffects_cons, applyEffect_msrSet hf, applyEffects_cons, htarget,
    applyEffects_nil]

/-- The iteration of the return: one unit is spent, the trigger compared, and CHECK made on the
returned-to state (R162, R165, R205). -/
theorem step_return {s : State} {w v a : Word} {fs : List FetchAnswer} {hs : List HandlerAnswer}
    (hx : s.executing = true) (hf : s.fatal = false) (hb : s.budgetRemaining ≠ 0)
    (hfetch : s.fetchTape = .word w :: fs)
    (hhandler : s.handlerTape = .resume (returnEffects v a) :: hs) :
    step s = .next (State.checkPending { s with
      pc := s.npc, npc := a, msr := v, budgetRemaining := s.budgetRemaining - 1
      interruptPending :=
        if s.icountStart - (s.budgetRemaining - 1) = s.triggerOffset then
          s.interruptPending ||| pendDecrementer else s.interruptPending
      lastFetch := some ⟨s.npc, s.msrF .ir⟩, fetchCount := s.fetchCount + 1, fetchTape := fs
      lastDispatch := some ⟨tableIndexOf w, w⟩, handlerCount := s.handlerCount + 1
      handlerTape := hs }) := by
  rw [step_resume hx hb hfetch hhandler, applyEffects_returnEffects]
  exact hf

/-- With EE = 0 or nothing pending, CHECK does nothing (R123, R126). -/
theorem checkPending_of_masked_or_none {s : State}
    (h : s.msrF .ee = false ∨ s.interruptPending = 0) : s.checkPending = s :=
  h.elim checkPending_of_masked fun hz => checkPending_of_none ((pendingKind_eq_none_iff _).2 hz)

/-- The latch bits that the entry of an asynchronous kind keeps (R115). -/
theorem not_kindClears_async (p : Params) :
    ~~~kindClears p .irq = 0b110#3 ∧ ~~~kindClears p .decrementer = 0b101#3 ∧
      ~~~kindClears p .smi = 0b011#3 := by
  show ~~~pendIrq = _ ∧ ~~~pendDecrementer = _ ∧ ~~~pendSmi = _
  decide

/-- With EE = 1 and something pending, CHECK is the entry of the pending kind of highest priority,
which returns to `npc` and clears that one bit (R101, R102, R115, R123, R124). -/
theorem checkPending_of_pending {s : State} (he : s.msrF .ee = true)
    (hne : s.interruptPending ≠ 0) :
    s.checkPending = { s with
      srr0 := s.npc
      srr1 := s.msr &&& 0x0000ff73
      msr := msrAfterEntry s.params.layout s.msr
      npc := s.vectorBase s.msr |||
        (if s.interruptPending.getLsbD 0 then 0x00000500
          else if s.interruptPending.getLsbD 1 then 0x00000900 else 0x00001400)
      interruptPending := s.interruptPending &&&
        (if s.interruptPending.getLsbD 0 then 0b110#3
          else if s.interruptPending.getLsbD 1 then 0b101#3 else 0b011#3) } := by
  obtain ⟨hirq, hdecrementer, hsmi⟩ := not_kindClears_async s.params
  rw [checkPending_of_some he (pendingKind_of_ne_zero _ hne),
    dispatch_of_open (gatedOff_of_enabled he _)]
  split_ifs
  · rw [enter_async (K := .irq) rfl, hirq]; rfl
  · rw [enter_async (K := .decrementer) rfl, hdecrementer]; rfl
  · rw [enter_async (K := .smi) rfl, hsmi]; rfl

/-- CHECK writes neither the budget nor `pc` (R101, R123). -/
theorem checkPending_keeps_budget_pc (s : State) :
    s.checkPending.budgetRemaining = s.budgetRemaining ∧ s.checkPending.pc = s.pc := by
  rcases checkPending_cases s with e | ⟨K, -, -, e, -⟩ <;> rw [e] <;> exact ⟨rfl, rfl⟩

/-- Settles O55: the iteration is `step_return`, and the two clauses are the two sides of its CHECK. -/
theorem returnFromException : Obligations.ReturnFromException := by
  intro s w v a fs hs hx hf hb hfetch hhandler latched
  obtain ⟨hbudget, hpc⟩ := checkPending_keeps_budget_pc _
  refine ⟨_, step_return hx hf hb hfetch hhandler, hbudget, hpc, fun hquiet => ?_,
    fun he hne => ?_⟩
  · rw [checkPending_of_masked_or_none]
    · exact ⟨rfl, rfl, rfl, rfl, rfl⟩
    · exact hquiet
  · rw [checkPending_of_pending]
    · exact ⟨rfl, rfl, rfl, rfl, rfl⟩
    · exact he
    · exact hne

end Sys2Proof.Machine
end
